-- ==== Sys2Proof/Word.lean ====
section
/-! DEFINITION. The word of the PDP-8/X and the names of its widths (spec/00_scope.md R7, R8, R11). -/

namespace Sys2Proof

/-- A word: 32 bits, read as a vector of bits or as a two's complement integer (R7). Bit 0 is the
least significant bit and bit 31 the sign bit (R11). -/
abbrev Word := BitVec 32

/-- One listed cell of memory: a word address and the word it holds. Memory is measured in 32-bit
words and the machine has no bytes, so the cell of this machine is a word (R60, R72; log entry 4). -/
abbrev Cell := Nat × Word

/-- A pair (device number D, device operation DOP) of an input/output instruction (R35, R71). -/
abbrev DeviceOp := BitVec 8 × BitVec 4

end Sys2Proof
end

