-- ==== Sys2Proof/Syntax.lean ====
section
/-! DEFINITION. The instructions: one constructor for each row of spec/opcode_table.json
(spec/30_encoding.md R90 to R110). A word of the operate class is a SET of micro-operations (R103): a
word that selects exactly one named action is that row's constructor, and a word that selects several
actions, or none, is the constructor of its class row (`group1`, `group2`, `reverse`, `group3`), which
carries the set. Unassigned bits (R105) are carried as an operand `u` and select no action. -/

namespace Sys2Proof

/-- The group 1 selector RR, RL, RT: one of seven operations or none (R97, R172). -/
inductive RotSel where
  | noRot | rar | rtr | ral | rtl | hsw | pca | bsw
deriving DecidableEq, Repr

/-- The actions a group 1 word selects (R97, R165). -/
structure Opr1 where
  cla : Bool := false
  cll : Bool := false
  cma : Bool := false
  cml : Bool := false
  iac : Bool := false
  rot : RotSel := .noRot
deriving DecidableEq, Repr

/-- The actions a group 2 word selects besides the reverse bit (R98, R190). -/
structure Opr2 where
  cla : Bool := false
  sma : Bool := false
  sza : Bool := false
  snl : Bool := false
  hlt : Bool := false
deriving DecidableEq, Repr

/-- The AC/MQ part a group 3 word selects by its 0x0400 and 0x0100 bits (R99, R207 to R209). -/
inductive MqSel where
  | noMq | mqa | mql | swp
deriving DecidableEq, Repr

/-- The sixteen EOP operations (R99, R215); `none0` and `noneB` take no action (R229). -/
inductive Eop where
  | none0 | asc | muy | dvi | nmi | shl | lsr | asr
  | sca | dad | dst | noneB | dpic | dpsz | dcm | sam
deriving DecidableEq, Repr

/-- The actions a group 3 word selects (R99, R205). -/
structure Opr3 where
  cla : Bool := false
  mq  : MqSel := .noMq
  eop : Eop := .none0
deriving DecidableEq, Repr

/-- The instructions, in the order of spec/opcode_table.json. Operands: `i` the indirect bit IR[12],
`p` the page bit IR[11], `off` the offset IR[10:0]; `u` the unassigned bits, most significant first:
IR[12], IR[10], IR[7], IR[3] of group 1, the same and IR[2] of group 2, IR[3:1] of group 3. -/
inductive Instr where
  /-- IMM, load immediate (R126). -/
  | imm (v : BitVec 31)
  /-- AND (R146). -/
  | and (i p : Bool) (off : BitVec 11)
  /-- TAD, two's complement add (R147). -/
  | tad (i p : Bool) (off : BitVec 11)
  /-- DCA, deposit and clear AC (R149). -/
  | dca (i p : Bool) (off : BitVec 11)
  /-- ISZ, increment and skip if zero (R151). -/
  | isz (i p : Bool) (off : BitVec 11)
  /-- JMS, jump to subroutine (R152). -/
  | jms (i p : Bool) (off : BitVec 11)
  /-- JMP (R153). -/
  | jmp (i p : Bool) (off : BitVec 11)
  /-- IOT, input/output (R160); `x` is the unassigned IR[12] (R96, R105). -/
  | iot (x : Bool) (d : BitVec 8) (dop : BitVec 4)
  /-- (group 1), a group 1 word of several actions, or of unassigned bits alone (R165). -/
  | group1 (f : Opr1) (u : BitVec 4)
  /-- NOP, the one word 0x0000E000 (R181). -/
  | nop
  /-- CLA of group 1, clear AC (R167). -/
  | cla1 (u : BitVec 4)
  /-- CLL, clear link (R168). -/
  | cll (u : BitVec 4)
  /-- CMA, complement AC (R169). -/
  | cma (u : BitVec 4)
  /-- CML, complement link (R170). -/
  | cml (u : BitVec 4)
  /-- IAC, increment AC (R171). -/
  | iac (u : BitVec 4)
  /-- RAR, rotate AC and L right (R174). -/
  | rar (u : BitVec 4)
  /-- RTR, rotate twice right (R175). -/
  | rtr (u : BitVec 4)
  /-- RAL, rotate AC and L left (R176). -/
  | ral (u : BitVec 4)
  /-- RTL, rotate twice left (R177). -/
  | rtl (u : BitVec 4)
  /-- HSW, halfword swap (R178). -/
  | hsw (u : BitVec 4)
  /-- PCA, PC to AC (R179). -/
  | pca (u : BitVec 4)
  /-- BSW, "byte swap" (R180). -/
  | bsw (u : BitVec 4)
  /-- (group 2), a group 2 word without the reverse bit and of several actions, or of none (R190). -/
  | group2 (f : Opr2) (u : BitVec 5)
  /-- CLA of group 2 (R191). -/
  | cla2 (u : BitVec 5)
  /-- SMA, skip if minus AC (R192). -/
  | sma (u : BitVec 5)
  /-- SZA, skip if zero AC (R193). -/
  | sza (u : BitVec 5)
  /-- SNL, skip if non-zero L (R194). -/
  | snl (u : BitVec 5)
  /-- (reverse), a group 2 word with the reverse bit that no alias row names alone (R195). -/
  | reverse (f : Opr2) (u : BitVec 5)
  /-- SPA, SMA with the reverse bit (R196). -/
  | spa (u : BitVec 5)
  /-- SNA, SZA with the reverse bit (R196). -/
  | sna (u : BitVec 5)
  /-- SZL, SNL with the reverse bit (R196). -/
  | szl (u : BitVec 5)
  /-- SKP, the unconditional skip: the reverse bit and no test (R197). -/
  | skp (u : BitVec 5)
  /-- HLT (R198). -/
  | hlt (u : BitVec 5)
  /-- (group 3), a group 3 word of several actions (R205). -/
  | group3 (f : Opr3) (i : Bool) (u : BitVec 3)
  /-- CLA of group 3 (R206). -/
  | cla3 (i : Bool) (u : BitVec 3)
  /-- MQA, MQ into AC (R207). -/
  | mqa (i : Bool) (u : BitVec 3)
  /-- MQL, MQ load (R208). -/
  | mql (i : Bool) (u : BitVec 3)
  /-- SWP, exchange AC and MQ (R209). -/
  | swp (i : Bool) (u : BitVec 3)
  /-- (EOP 0x0), no action (R229). -/
  | eop0 (i : Bool) (u : BitVec 3)
  /-- ASC, AC to SC (R219). -/
  | asc (i : Bool) (u : BitVec 3)
  /-- MUY, multiply (R220). -/
  | muy (i : Bool) (u : BitVec 3)
  /-- DVI, divide (R221). -/
  | dvi (i : Bool) (u : BitVec 3)
  /-- NMI, normalise (R223). -/
  | nmi (i : Bool) (u : BitVec 3)
  /-- SHL, shift left (R224). -/
  | shl (i : Bool) (u : BitVec 3)
  /-- LSR, logical shift right (R225). -/
  | lsr (i : Bool) (u : BitVec 3)
  /-- ASR, arithmetic shift right (R226). -/
  | asr (i : Bool) (u : BitVec 3)
  /-- SCA, step counter to AC (R228). -/
  | sca (i : Bool) (u : BitVec 3)
  /-- DAD, double add (R230). -/
  | dad (i : Bool) (u : BitVec 3)
  /-- DST, double store (R231). -/
  | dst (i : Bool) (u : BitVec 3)
  /-- (EOP 0xB), no action (R229). -/
  | eopB (i : Bool) (u : BitVec 3)
  /-- DPIC, double precision increment (R232). -/
  | dpic (i : Bool) (u : BitVec 3)
  /-- DPSZ, double precision skip if zero (R233). -/
  | dpsz (i : Bool) (u : BitVec 3)
  /-- DCM, double complement (R234). -/
  | dcm (i : Bool) (u : BitVec 3)
  /-- SAM, subtract AC from MQ (R235). -/
  | sam (i : Bool) (u : BitVec 3)
deriving DecidableEq, Repr

/-- How many actions a group 1 set names. -/
def Opr1.count (f : Opr1) : Nat :=
  f.cla.toNat + f.cll.toNat + f.cma.toNat + f.cml.toNat + f.iac.toNat + (f.rot != .noRot).toNat

/-- How many actions a group 2 set names, the reverse bit not counted. -/
def Opr2.count (f : Opr2) : Nat :=
  f.cla.toNat + f.sma.toNat + f.sza.toNat + f.snl.toNat + f.hlt.toNat

/-- How many actions a group 3 set names. -/
def Opr3.count (f : Opr3) : Nat :=
  f.cla.toNat + (f.mq != .noMq).toNat + (f.eop != .none0).toNat

end Sys2Proof
end

