-- ==== Sys2Proof/WellFormed.lean ====
section
/-! DEFINITION. Which terms of `Instr` stand for a word. Every operand has the width of its field, so the
only checks are on the class rows: a set that names one action alone is that action's own constructor
(spec/30_encoding.md R103, R110), so the class constructor that holds it stands for no word. -/

namespace Sys2Proof

/-- A group 1 set written as the class row: several actions, or none with some unassigned bit set (the
word with no bit at all is NOP, R181). -/
def wellFormedGroup1 (f : Opr1) (u : BitVec 4) : Bool :=
  decide (2 ≤ f.count) || (f.count == 0 && u != 0)

/-- A group 2 set without the reverse bit written as the class row: several actions, or none (R98). -/
def wellFormedGroup2 (f : Opr2) : Bool :=
  decide (2 ≤ f.count) || f.count == 0

/-- A group 2 set with the reverse bit that is none of SKP, SPA, SNA, SZL alone (R195 to R197). -/
def wellFormedReverse (f : Opr2) : Bool :=
  decide (2 ≤ f.count) || f.cla || f.hlt

/-- A group 3 set written as the class row: several actions (R99). -/
def wellFormedGroup3 (f : Opr3) : Bool :=
  decide (2 ≤ f.count)

/-- The instruction terms that stand for a word. -/
def Instr.wellFormed : Instr → Bool
  | .group1 f u => wellFormedGroup1 f u
  | .group2 f _ => wellFormedGroup2 f
  | .reverse f _ => wellFormedReverse f
  | .group3 f _ _ => wellFormedGroup3 f
  | .imm _ | .and _ _ _ | .tad _ _ _ | .dca _ _ _ | .isz _ _ _ | .jms _ _ _ | .jmp _ _ _ | .iot _ _ _
  | .nop | .cla1 _ | .cll _ | .cma _ | .cml _ | .iac _ | .rar _ | .rtr _ | .ral _ | .rtl _ | .hsw _
  | .pca _ | .bsw _ | .cla2 _ | .sma _ | .sza _ | .snl _ | .spa _ | .sna _ | .szl _ | .skp _ | .hlt _
  | .cla3 _ _ | .mqa _ _ | .mql _ _ | .swp _ _ | .eop0 _ _ | .asc _ _ | .muy _ _ | .dvi _ _ | .nmi _ _
  | .shl _ _ | .lsr _ _ | .asr _ _ | .sca _ _ | .dad _ _ | .dst _ _ | .eopB _ _ | .dpic _ _ | .dpsz _ _
  | .dcm _ _ | .sam _ _ => true

end Sys2Proof
end

