-- ==== Sys2Proof/Decode.lean ====
section
/-! DEFINITION. The decoder, total on any word, and after it the encoder (spec/30_encoding.md R90 to R105,
spec/40_cycle_and_imm.md R125). Bits are numbered as R11 numbers them. -/

namespace Sys2Proof

/-- Why a word is no instruction. -/
inductive DecodeError where
  /-- IR[31] = 0 and IR[30:16] not 0: the spec gives the word no meaning (R93, U1). -/
  | reserved (w : Word)
deriving DecidableEq, Repr

/-- One bit as a field of width 1. -/
def bit (b : Bool) : BitVec 1 := BitVec.ofBool b

/-! ### Decoding -/

/-- The selector RR, RL, RT (the table of R97). -/
def rotSelOf (rr rl rt : Bool) : RotSel :=
  match rr, rl, rt with
  | false, false, false => .noRot
  | true,  false, false => .rar
  | true,  false, true  => .rtr
  | false, true,  false => .ral
  | false, true,  true  => .rtl
  | false, false, true  => .hsw
  | true,  true,  true  => .pca
  | true,  true,  false => .bsw

/-- The AC/MQ part of group 3 from IR[10] and IR[8] (R99, R207 to R209). -/
def mqSelOf (b10 b8 : Bool) : MqSel :=
  match b10, b8 with
  | false, false => .noMq
  | true,  false => .mqa
  | false, true  => .mql
  | true,  true  => .swp

/-- The EOP operation of each value of IR[7:4] (the table of R99). -/
def eopOf (b7 b6 b5 b4 : Bool) : Eop :=
  match b7, b6, b5, b4 with
  | false, false, false, false => .none0
  | false, false, false, true  => .asc
  | false, false, true,  false => .muy
  | false, false, true,  true  => .dvi
  | false, true,  false, false => .nmi
  | false, true,  false, true  => .shl
  | false, true,  true,  false => .lsr
  | false, true,  true,  true  => .asr
  | true,  false, false, false => .sca
  | true,  false, false, true  => .dad
  | true,  false, true,  false => .dst
  | true,  false, true,  true  => .noneB
  | true,  true,  false, false => .dpic
  | true,  true,  false, true  => .dpsz
  | true,  true,  true,  false => .dcm
  | true,  true,  true,  true  => .sam

/-- The actions a group 1 word selects (R97). -/
def opr1Of (w : Word) : Opr1 where
  cla := w.getLsbD 9
  cll := w.getLsbD 8
  cma := w.getLsbD 6
  cml := w.getLsbD 5
  iac := w.getLsbD 0
  rot := rotSelOf (w.getLsbD 4) (w.getLsbD 2) (w.getLsbD 1)

/-- The unassigned bits of a group 1 word: IR[12], IR[10], IR[7], IR[3] (R105). -/
def unassigned1 (w : Word) : BitVec 4 :=
  bit (w.getLsbD 12) ++ bit (w.getLsbD 10) ++ bit (w.getLsbD 7) ++ bit (w.getLsbD 3)

/-- The actions a group 2 word selects, the reverse bit apart (R98). -/
def opr2Of (w : Word) : Opr2 where
  cla := w.getLsbD 9
  sma := w.getLsbD 8
  sza := w.getLsbD 6
  snl := w.getLsbD 5
  hlt := w.getLsbD 1

/-- The unassigned bits of a group 2 word: IR[12], IR[10], IR[7], IR[3], IR[2] (R105). -/
def unassigned2 (w : Word) : BitVec 5 :=
  bit (w.getLsbD 12) ++ bit (w.getLsbD 10) ++ bit (w.getLsbD 7) ++ bit (w.getLsbD 3) ++ bit (w.getLsbD 2)

/-- The actions a group 3 word selects (R99). -/
def opr3Of (w : Word) : Opr3 where
  cla := w.getLsbD 9
  mq  := mqSelOf (w.getLsbD 10) (w.getLsbD 8)
  eop := eopOf (w.getLsbD 7) (w.getLsbD 6) (w.getLsbD 5) (w.getLsbD 4)

/-- The unassigned bits IR[3:1] of a group 3 word (R105, R211). -/
def unassigned3 (w : Word) : BitVec 3 :=
  bit (w.getLsbD 3) ++ bit (w.getLsbD 2) ++ bit (w.getLsbD 1)

/-- The constructor of a group 1 set: a single action by its own name, NOP for no bit at all (R181), and
every other set by the class row (R103). -/
def nameGroup1 (f : Opr1) (u : BitVec 4) : Instr :=
  match f with
  | ⟨false, false, false, false, false, .noRot⟩ => if u = 0 then .nop else .group1 f u
  | ⟨true,  false, false, false, false, .noRot⟩ => .cla1 u
  | ⟨false, true,  false, false, false, .noRot⟩ => .cll u
  | ⟨false, false, true,  false, false, .noRot⟩ => .cma u
  | ⟨false, false, false, true,  false, .noRot⟩ => .cml u
  | ⟨false, false, false, false, true,  .noRot⟩ => .iac u
  | ⟨false, false, false, false, false, .rar⟩ => .rar u
  | ⟨false, false, false, false, false, .rtr⟩ => .rtr u
  | ⟨false, false, false, false, false, .ral⟩ => .ral u
  | ⟨false, false, false, false, false, .rtl⟩ => .rtl u
  | ⟨false, false, false, false, false, .hsw⟩ => .hsw u
  | ⟨false, false, false, false, false, .pca⟩ => .pca u
  | ⟨false, false, false, false, false, .bsw⟩ => .bsw u
  | _ => .group1 f u

/-- The constructor of a group 2 set and its reverse bit: a single action, or a single test with the
reverse bit, by its own name (R191 to R198), and every other set by `group2` or `reverse`. -/
def nameGroup2 (reversed : Bool) (f : Opr2) (u : BitVec 5) : Instr :=
  match reversed, f with
  | false, ⟨true,  false, false, false, false⟩ => .cla2 u
  | false, ⟨false, true,  false, false, false⟩ => .sma u
  | false, ⟨false, false, true,  false, false⟩ => .sza u
  | false, ⟨false, false, false, true,  false⟩ => .snl u
  | false, ⟨false, false, false, false, true⟩  => .hlt u
  | false, _ => .group2 f u
  | true,  ⟨false, false, false, false, false⟩ => .skp u
  | true,  ⟨false, true,  false, false, false⟩ => .spa u
  | true,  ⟨false, false, true,  false, false⟩ => .sna u
  | true,  ⟨false, false, false, true,  false⟩ => .szl u
  | true,  _ => .reverse f u

/-- The constructor of a group 3 set: a single action by its own name, no action as EOP 0x0, and every
set of several actions by `group3` (R99, R205). -/
def nameGroup3 (f : Opr3) (i : Bool) (u : BitVec 3) : Instr :=
  match f with
  | ⟨false, .noMq, .none0⟩ => .eop0 i u
  | ⟨false, .noMq, .asc⟩   => .asc i u
  | ⟨false, .noMq, .muy⟩   => .muy i u
  | ⟨false, .noMq, .dvi⟩   => .dvi i u
  | ⟨false, .noMq, .nmi⟩   => .nmi i u
  | ⟨false, .noMq, .shl⟩   => .shl i u
  | ⟨false, .noMq, .lsr⟩   => .lsr i u
  | ⟨false, .noMq, .asr⟩   => .asr i u
  | ⟨false, .noMq, .sca⟩   => .sca i u
  | ⟨false, .noMq, .dad⟩   => .dad i u
  | ⟨false, .noMq, .dst⟩   => .dst i u
  | ⟨false, .noMq, .noneB⟩ => .eopB i u
  | ⟨false, .noMq, .dpic⟩  => .dpic i u
  | ⟨false, .noMq, .dpsz⟩  => .dpsz i u
  | ⟨false, .noMq, .dcm⟩   => .dcm i u
  | ⟨false, .noMq, .sam⟩   => .sam i u
  | ⟨true,  .noMq, .none0⟩ => .cla3 i u
  | ⟨false, .mqa,  .none0⟩ => .mqa i u
  | ⟨false, .mql,  .none0⟩ => .mql i u
  | ⟨false, .swp,  .none0⟩ => .swp i u
  | _ => .group3 f i u

/-- An operate word: IR[11] and IR[0] choose the group (R102, R125). -/
def decodeOperate (w : Word) : Instr :=
  if w.getLsbD 11 = false then nameGroup1 (opr1Of w) (unassigned1 w)
  else if w.getLsbD 0 = false then nameGroup2 (w.getLsbD 4) (opr2Of w) (unassigned2 w)
  else nameGroup3 (opr3Of w) (w.getLsbD 12) (unassigned3 w)

/-- A word with IR[31] = 0 and IR[30:16] = 0, by its OP field IR[15:13] (R92, R102). -/
def decodeByOp (w : Word) : Instr :=
  let i := w.getLsbD 12
  let p := w.getLsbD 11
  let off := w.extractLsb' 0 11
  match w.getLsbD 15, w.getLsbD 14, w.getLsbD 13 with
  | false, false, false => .and i p off
  | false, false, true  => .tad i p off
  | false, true,  false => .dca i p off
  | false, true,  true  => .isz i p off
  | true,  false, false => .jms i p off
  | true,  false, true  => .jmp i p off
  | true,  true,  false => .iot i (w.extractLsb' 4 8) (w.extractLsb' 0 4)
  | true,  true,  true  => decodeOperate w

/-- The decoder: the IMM test first, then the reserved words, then OP (R91, R93, R125). -/
def decode (w : Word) : Except DecodeError Instr :=
  if w.getLsbD 31 = true then .ok (.imm (w.extractLsb' 0 31))
  else if w.extractLsb' 16 15 = 0 then .ok (decodeByOp w)
  else .error (.reserved w)

/-- The instruction the decoder reads from a table word: the first memory word is bits 31..0 of `w`. An
operand word (bits 63..32) is no part of the decoding (R90, R100). -/
def decodeTableWord (nbits w : Nat) : Option Instr :=
  match decode (BitVec.ofNat 32 (w % 2 ^ nbits)) with
  | .ok i => some i
  | .error _ => none

/-! ### Encoding -/

/-- RR of a selector (R97). -/
def RotSel.rr : RotSel → Bool
  | .rar | .rtr | .pca | .bsw => true
  | .noRot | .ral | .rtl | .hsw => false

/-- RL of a selector (R97). -/
def RotSel.rl : RotSel → Bool
  | .ral | .rtl | .pca | .bsw => true
  | .noRot | .rar | .rtr | .hsw => false

/-- RT of a selector (R97). -/
def RotSel.rt : RotSel → Bool
  | .rtr | .rtl | .hsw | .pca => true
  | .noRot | .rar | .ral | .bsw => false

/-- The MQA bit IR[10] of a group 3 word (R99). -/
def MqSel.bit10 : MqSel → Bool
  | .mqa | .swp => true
  | .noMq | .mql => false

/-- The MQL bit IR[8] of a group 3 word (R99). -/
def MqSel.bit8 : MqSel → Bool
  | .mql | .swp => true
  | .noMq | .mqa => false

/-- The EOP value, IR[7:4] (the table of R99). -/
def Eop.code : Eop → BitVec 4
  | .none0 => 0x0 | .asc => 0x1 | .muy => 0x2 | .dvi => 0x3
  | .nmi => 0x4   | .shl => 0x5 | .lsr => 0x6 | .asr => 0x7
  | .sca => 0x8   | .dad => 0x9 | .dst => 0xA | .noneB => 0xB
  | .dpic => 0xC  | .dpsz => 0xD | .dcm => 0xE | .sam => 0xF

/-- Format MRI (R95): zeros, OP, I, P, offset. -/
def encodeMri (op : BitVec 3) (i p : Bool) (off : BitVec 11) : Word :=
  0#16 ++ op ++ bit i ++ bit p ++ off

/-- Format OPR1 (R97), from bit 31 down to bit 0. -/
def encodeGroup1 (f : Opr1) (u : BitVec 4) : Word :=
  0#16 ++ 7#3 ++ bit (u.getLsbD 3) ++ 0#1 ++ bit (u.getLsbD 2) ++ bit f.cla ++ bit f.cll
    ++ bit (u.getLsbD 1) ++ bit f.cma ++ bit f.cml ++ bit f.rot.rr ++ bit (u.getLsbD 0)
    ++ bit f.rot.rl ++ bit f.rot.rt ++ bit f.iac

/-- Format OPR2 (R98), from bit 31 down to bit 0. -/
def encodeGroup2 (reversed : Bool) (f : Opr2) (u : BitVec 5) : Word :=
  0#16 ++ 7#3 ++ bit (u.getLsbD 4) ++ 1#1 ++ bit (u.getLsbD 3) ++ bit f.cla ++ bit f.sma
    ++ bit (u.getLsbD 2) ++ bit f.sza ++ bit f.snl ++ bit reversed ++ bit (u.getLsbD 1)
    ++ bit (u.getLsbD 0) ++ bit f.hlt ++ 0#1

/-- Format OPR3 (R99), from bit 31 down to bit 0. -/
def encodeGroup3 (f : Opr3) (i : Bool) (u : BitVec 3) : Word :=
  0#16 ++ 7#3 ++ bit i ++ 1#1 ++ bit f.mq.bit10 ++ bit f.cla ++ bit f.mq.bit8 ++ f.eop.code
    ++ u ++ 1#1

/-- The instruction word of an instruction (R94 to R99). The operand word of MUY, DVI, DAD and DST is no
part of it: it is memory that the instruction reads through PC (R100). -/
def encode : Instr → Word
  | .imm v => 1#1 ++ v
  | .and i p off => encodeMri 0 i p off
  | .tad i p off => encodeMri 1 i p off
  | .dca i p off => encodeMri 2 i p off
  | .isz i p off => encodeMri 3 i p off
  | .jms i p off => encodeMri 4 i p off
  | .jmp i p off => encodeMri 5 i p off
  | .iot x d dop => 0#16 ++ 6#3 ++ bit x ++ d ++ dop
  | .group1 f u => encodeGroup1 f u
  | .nop    => encodeGroup1 {} 0
  | .cla1 u => encodeGroup1 { cla := true } u
  | .cll u  => encodeGroup1 { cll := true } u
  | .cma u  => encodeGroup1 { cma := true } u
  | .cml u  => encodeGroup1 { cml := true } u
  | .iac u  => encodeGroup1 { iac := true } u
  | .rar u  => encodeGroup1 { rot := .rar } u
  | .rtr u  => encodeGroup1 { rot := .rtr } u
  | .ral u  => encodeGroup1 { rot := .ral } u
  | .rtl u  => encodeGroup1 { rot := .rtl } u
  | .hsw u  => encodeGroup1 { rot := .hsw } u
  | .pca u  => encodeGroup1 { rot := .pca } u
  | .bsw u  => encodeGroup1 { rot := .bsw } u
  | .group2 f u => encodeGroup2 false f u
  | .cla2 u => encodeGroup2 false { cla := true } u
  | .sma u  => encodeGroup2 false { sma := true } u
  | .sza u  => encodeGroup2 false { sza := true } u
  | .snl u  => encodeGroup2 false { snl := true } u
  | .reverse f u => encodeGroup2 true f u
  | .spa u  => encodeGroup2 true { sma := true } u
  | .sna u  => encodeGroup2 true { sza := true } u
  | .szl u  => encodeGroup2 true { snl := true } u
  | .skp u  => encodeGroup2 true {} u
  | .hlt u  => encodeGroup2 false { hlt := true } u
  | .group3 f i u => encodeGroup3 f i u
  | .cla3 i u => encodeGroup3 { cla := true } i u
  | .mqa i u  => encodeGroup3 { mq := .mqa } i u
  | .mql i u  => encodeGroup3 { mq := .mql } i u
  | .swp i u  => encodeGroup3 { mq := .swp } i u
  | .eop0 i u => encodeGroup3 {} i u
  | .asc i u  => encodeGroup3 { eop := .asc } i u
  | .muy i u  => encodeGroup3 { eop := .muy } i u
  | .dvi i u  => encodeGroup3 { eop := .dvi } i u
  | .nmi i u  => encodeGroup3 { eop := .nmi } i u
  | .shl i u  => encodeGroup3 { eop := .shl } i u
  | .lsr i u  => encodeGroup3 { eop := .lsr } i u
  | .asr i u  => encodeGroup3 { eop := .asr } i u
  | .sca i u  => encodeGroup3 { eop := .sca } i u
  | .dad i u  => encodeGroup3 { eop := .dad } i u
  | .dst i u  => encodeGroup3 { eop := .dst } i u
  | .eopB i u => encodeGroup3 { eop := .noneB } i u
  | .dpic i u => encodeGroup3 { eop := .dpic } i u
  | .dpsz i u => encodeGroup3 { eop := .dpsz } i u
  | .dcm i u  => encodeGroup3 { eop := .dcm } i u
  | .sam i u  => encodeGroup3 { eop := .sam } i u

end Sys2Proof
end

