-- ==== Sys2Proof/Config.lean ====
section
/-! DEFINITION. What an implementation fixes and the values the spec leaves free (spec/00_scope.md R6,
spec/92_eei_decisions.md). The parameters H and DEVICES stand in the state, see Machine/State.lean. -/

namespace Sys2Proof.Config

/-- `DviOverflowResult`, its AC half: the value AC holds after a divide overflow, as a function of the
AC, MQ and divisor the division found. The spec leaves it open (R222, U6), so nothing is known of it:
a free value (log entry 2). -/
opaque dviOverflowAc (ac mq y : Word) : Word

/-- `DviOverflowResult`, its MQ half (R222, U6; log entry 2). -/
opaque dviOverflowMq (ac mq y : Word) : Word

/-- `JMS_LINK_DELTA`: JMS stores the advanced PC plus this (R152, D7: 1, the literal text; log entry 9). -/
def jmsLinkDelta : Word := 1

/-- What a listed-nowhere existing address reads as: DESIGN CHOICE, the spec gives memory no initial
content (R45, R275; log entry 3). -/
def unlistedWord : Word := 0

/-- H of the machine right after reset: DESIGN CHOICE, H is open (R63, D16); two pages, the memory of
the spec's own vectors (D33; log entry 1). -/
def resetH : Word := 0x00000FFF

/-- The range of auto-increment pointers, first address (R143). -/
def autoIncrementFirst : Word := 0x00000200

/-- The range of auto-increment pointers, last address (R143). -/
def autoIncrementLast : Word := 0x000002FF

/-- How many shifts the model tries before it calls an NMI endless. Every non-zero AC:MQ needs at most
62 (R223), so the bound of 64 never cuts a normalisation short (log entry 10). -/
def nmiShiftBound : Nat := 64

end Sys2Proof.Config
end

