-- ==== Sys2Proof/Machine/State.lean ====
section
/-! DEFINITION. The state of the machine, its reset value and the ways a step can stop. Every register the
spec names is here but SP, whose width is lost and which R33 tells a model to leave out (log entry 5). The
registers of the explanation (IR, OP, Y, D, DOP, B, EOP) are kept as R20 lists them, though R41 shows that
no step depends on the value an earlier step left in them. -/

namespace Sys2Proof.Machine

/-- The memory: its listed words, at strictly rising addresses, none of them equal to what an unlisted
address reads as (`Memory.wf`, Machine/Ops.lean). -/
abbrev Memory := List Cell

/-- The machine: the registers of R20, the parameters H and DEVICES (R6), and the memory. -/
structure State where
  /-- AC, the accumulator (R21). -/
  ac : Word
  /-- MQ, the multiplier-quotient register (R22). -/
  mq : Word
  /-- L, the link (R23). -/
  l : Bool
  /-- PC, the address of the next word to be fetched (R24). -/
  pc : Word
  /-- BASE; no instruction reads or writes it (R27). -/
  base : Word
  /-- SBASE; no instruction reads or writes it (R28). -/
  sbase : Word
  /-- IR (also R, IW), the instruction word being executed (R29). -/
  ir : Word
  /-- OP, IR[15:13] of the word last fetched (R30). -/
  op : BitVec 3
  /-- S, 1 if the next word is going to be skipped (R31). -/
  skip : Bool
  /-- Y, the address being accessed, or the operand value of MUY and DVI (R34). -/
  y : Word
  /-- D, the device number of the last input/output instruction (R35). -/
  d : BitVec 8
  /-- DOP, the device operation of the last input/output instruction (R35). -/
  dop : BitVec 4
  /-- SC, the shift count (R36). -/
  sc : BitVec 7
  /-- H, the address of the last existing word, fixed when the machine is built (R37, R63): no step writes it. -/
  h : Word
  /-- B, the bit a rotate saves (R38). -/
  b : Bool
  /-- EOP, IR[7:4] of the last group 3 instruction (R39). -/
  eop : BitVec 4
  /-- RUN, 1 running and 0 halted (R40). -/
  run : Bool
  /-- DEVICES, the (D, DOP) pairs a device defines, fixed when the machine is built (R6, R161). -/
  devices : List DeviceOp
  /-- M, the memory (R60). -/
  mem : Memory
deriving DecidableEq, Repr

/-- Why the machine stops. -/
inductive Fault where
  /-- NMI of the double word zero: the loop of the instruction never ends and the spec assigns no next
  state (R223, R266, U7: stuck). Raised by NMI, and by a group 3 word that performs NMI. Safe: nothing is
  claimed of a state after it. -/
  | nmiNeverEnds
deriving DecidableEq, Repr

/-- Why the model makes no claim about a step. -/
inductive Refusal where
  /-- An instruction that has no meaning in this model yet. Raised by a refused arm of `exec`; no arm is
  refused. Safe. -/
  | notModelled (mnemonic : String)
  /-- The fetched word has IR[31] = 0 and IR[30:16] not 0: reserved, the spec gives it no meaning (R93,
  R266, U1). Raised by `step`. Safe. -/
  | reservedWord (w : Word)
  /-- An input/output instruction whose (D, DOP) a device defines: what the device does "is documented
  elsewhere" and no document is supplied (R160, R161, U3). Raised by IOT, never with the default empty
  device set. Safe. -/
  | deviceUndescribed (d : BitVec 8) (dop : BitVec 4)
deriving DecidableEq, Repr

/-! ### Setters, one per register a step can write -/

/-- The state with `ac` set. -/
def State.setAc (s : State) (v : Word) : State := { s with ac := v }

/-- The state with `mq` set. -/
def State.setMq (s : State) (v : Word) : State := { s with mq := v }

/-- The state with `l` set. -/
def State.setL (s : State) (v : Bool) : State := { s with l := v }

/-- The state with `pc` set. -/
def State.setPc (s : State) (v : Word) : State := { s with pc := v }

/-- The state with `ir` set. -/
def State.setIr (s : State) (v : Word) : State := { s with ir := v }

/-- The state with `op` set. -/
def State.setOp (s : State) (v : BitVec 3) : State := { s with op := v }

/-- The state with `skip` set. -/
def State.setSkip (s : State) (v : Bool) : State := { s with skip := v }

/-- The state with `y` set. -/
def State.setY (s : State) (v : Word) : State := { s with y := v }

/-- The state with `d` set. -/
def State.setD (s : State) (v : BitVec 8) : State := { s with d := v }

/-- The state with `dop` set. -/
def State.setDop (s : State) (v : BitVec 4) : State := { s with dop := v }

/-- The state with `sc` set. -/
def State.setSc (s : State) (v : BitVec 7) : State := { s with sc := v }

/-- The state with `b` set. -/
def State.setB (s : State) (v : Bool) : State := { s with b := v }

/-- The state with `eop` set. -/
def State.setEop (s : State) (v : BitVec 4) : State := { s with eop := v }

/-- The state with `run` set. -/
def State.setRun (s : State) (v : Bool) : State := { s with run := v }

/-- The state with `mem` set. -/
def State.setMem (s : State) (v : Memory) : State := { s with mem := v }

/-- The machine right after reset. The spec states no reset value of any kind (R45, N4): RUN = 1 and S = 0
are the launch premises R275 recommends, H and DEVICES are parameters (log entries 1 and 11), and every
other value is a DESIGN CHOICE of zero (log entries 3 and 6). -/
def State.reset : State where
  ac := 0
  mq := 0
  l := false
  pc := 0
  base := 0
  sbase := 0
  ir := 0
  op := 0
  skip := false
  y := 0
  d := 0
  dop := 0
  sc := 0
  h := Config.resetH
  b := false
  eop := 0
  run := true
  devices := []
  mem := []

end Sys2Proof.Machine
end

