-- ==== Sys2Proof/Machine/Flags.lean ====
section
/-! DEFINITION. The flag computations: carries, the borrow, and the tests of the skips. The machine has the
two flags L and S and no condition codes (spec/10_state.md R42). -/

namespace Sys2Proof.Machine

/-- The carry out of bit 31 of the unsigned sum a + b + carry-in (R12, R148). -/
def carryOut (a b : Word) (carryIn : Bool) : Bool :=
  decide (2 ^ 32 ≤ a.toNat + b.toNat + carryIn.toNat)

/-- The sum a + b + carry-in modulo 2^32 (R11). -/
def sumWord (a b : Word) (carryIn : Bool) : Word :=
  BitVec.ofNat 32 (a.toNat + b.toNat + carryIn.toNat)

/-- The borrow of the unsigned subtraction a - b: a is below b (R235, D22). -/
def borrowOut (a b : Word) : Bool := decide (a.toNat < b.toNat)

/-- L complemented when a carry comes out of AC, else unchanged (R23, R147, R171). -/
def State.complementLinkOn (s : State) (carry : Bool) : State :=
  s.setL (if carry then !s.l else s.l)

/-- The test of SMA: the sign bit of AC is 1 (R192). -/
def State.acMinus (s : State) : Bool := s.ac.getLsbD 31

/-- The test of SZA: AC is 0 (R193). -/
def State.acZero (s : State) : Bool := s.ac == 0

/-- The test of SNL: L is 1 (R194). -/
def State.linkOne (s : State) : Bool := s.l

/-- The test of DPSZ: AC and MQ are both 0 (R233). -/
def State.doubleZero (s : State) : Bool := s.ac == 0 && s.mq == 0

/-- S becomes 1 where a test holds, else stays (R192 to R194). -/
def State.skipWhen (s : State) (test : Bool) : State :=
  s.setSkip (if test then true else s.skip)

/-- The reverse bit: S becomes 1 - S (R195). -/
def State.reverseSkip (s : State) : State := s.setSkip (!s.skip)

end Sys2Proof.Machine
end

