-- ==== Sys2Proof/Machine/Ops.lean ====
section
/-! DEFINITION. The named operations over memory and registers: memory access (spec/20_memory.md R64 to R66),
the program counter (spec/40_cycle_and_imm.md R122), the fetch (R120, R121), halting and the external restart
(spec/60_exceptions.md R262). The machine takes no exception and returns from none: there is no trap entry
and no trap return to model (R250, R255, R256). -/

namespace Sys2Proof.Machine

/-! ### The memory as a list of words -/

/-- The word listed at an address, or what an unlisted address reads as. -/
def Memory.lookup : Memory → Nat → Word
  | [], _ => Config.unlistedWord
  | (k, v) :: m, a => if k = a then v else Memory.lookup m a

/-- The memory with the word at an address replaced, in the canonical form: a word equal to what an
unlisted address reads as is not listed. -/
def Memory.store : Memory → Nat → Word → Memory
  | [], a, v => if v = Config.unlistedWord then [] else [(a, v)]
  | (k, x) :: m, a, v =>
    if a < k then (if v = Config.unlistedWord then (k, x) :: m else (a, v) :: (k, x) :: m)
    else if a = k then (if v = Config.unlistedWord then m else (a, v) :: m)
    else (k, x) :: Memory.store m a v

/-- The canonical form: addresses strictly rising, no listed word equal to what an unlisted address reads
as. -/
def Memory.wf : Memory → Bool
  | [] => true
  | (k, v) :: m => v != Config.unlistedWord && m.all (fun c => decide (k < c.1)) && Memory.wf m

/-! ### Memory access -/

/-- Address a exists if and only if a <=u H (R64, D16). -/
def State.existsAt (s : State) (a : Word) : Bool := decide (a.toNat ≤ s.h.toNat)

/-- `M[a]`: the word at a, and 0 where a does not exist (R65). -/
def State.readWord (s : State) (a : Word) : Word :=
  if s.existsAt a then s.mem.lookup a.toNat else 0

/-- `M[a] <- v`: nothing happens where a does not exist (R66). -/
def State.writeWord (s : State) (a v : Word) : State :=
  if s.existsAt a then s.setMem (s.mem.store a.toNat v) else s

/-! ### The program counter -/

/-- The address after `pc`: plus 1 modulo 2^32, then 0 if that is greater than `h` (R122). -/
def nextAddress (h pc : Word) : Word :=
  if h.toNat < (pc + 1).toNat then 0 else pc + 1

/-- `AdvancePC()` (R12, R122). -/
def State.advancePc (s : State) : State := s.setPc (nextAddress s.h s.pc)

/-! ### The cycle's fetch and skip -/

/-- The OP field IR[15:13] of a word (R92). -/
def opField (w : Word) : BitVec 3 := w.extractLsb' 13 3

/-- The fetch: IR takes M[PC], Y takes PC, OP takes IR[15:13], and PC advances (R120, R121). -/
def State.fetch (s : State) : State :=
  (((s.setIr (s.readWord s.pc)).setY s.pc).setOp (opField (s.readWord s.pc))).advancePc

/-- The word fetched is skipped: S is cleared and nothing else happens (R120, R123). -/
def State.skipFetched (s : State) : State := s.setSkip false

/-! ### Halting and the external restart -/

/-- `halt`: RUN becomes 0 and nothing else changes (R198, R262). -/
def State.halt (s : State) : State := s.setRun false

/-- The external restart, an act of an agent outside the machine: RUN becomes 1 and nothing else changes
(R262, D25). No step takes it. -/
def State.restart (s : State) : State := s.setRun true

/-! ### Doing one thing or another -/

/-- The action taken where its bit is 1 (R103: all applicable actions are taken). -/
def State.whenBit (s : State) (b : Bool) (action : State → State) : State :=
  if b then action s else s

/-- An action performed n times (R216: "repeat SC times"). -/
def State.repeatN : Nat → (State → State) → State → State
  | 0, _, s => s
  | n + 1, action, s => State.repeatN n action (action s)

end Sys2Proof.Machine
end

