-- ==== Sys2Proof/Machine/Operands.lean ====
section
/-! DEFINITION. How operands are assembled (spec/30_encoding.md R101): the immediate, the effective address of
a memory-referencing instruction (spec/41_mri.md R140 to R143), and the operand word of MUY, DVI, DAD and DST
(spec/46_eae.md R218). -/

namespace Sys2Proof.Machine

/-- The immediate of IMM, `{IR[30], IR[30:0]}` (R101, R126). -/
def immediate (v : BitVec 31) : Word := v.signExtend 32

/-- The initial Y: page zero where the page bit is 0, else the page Y already holds, which after the fetch
is the page of the instruction itself (R141, D4). -/
def initialY (p : Bool) (off : BitVec 11) (y : Word) : Word :=
  (if p then y.extractLsb' 11 21 else 0#21) ++ off

/-- Y lies in the auto-increment range 0x200 to 0x2FF (R143). -/
def inAutoIncrement (y : Word) : Bool :=
  decide (Config.autoIncrementFirst.toNat ≤ y.toNat) && decide (y.toNat ≤ Config.autoIncrementLast.toNat)

/-- The auto-increment step: `M[Y] <- M[Y] + 1` where Y is in the range (R143). -/
def State.autoIncrement (s : State) : State :=
  if inAutoIncrement s.y then s.writeWord s.y (s.readWord s.y + 1) else s

/-- The indirect step of a memory-referencing instruction: auto-increment, then `Y <- M[Y]` (R143). -/
def State.indirectY (s : State) : State :=
  s.autoIncrement.setY (s.autoIncrement.readWord s.y)

/-- `EffectiveAddress`: Y becomes the address of a memory-referencing instruction, and a pointer in the
auto-increment range has been incremented in memory (R140). -/
def State.effectiveAddress (i p : Bool) (off : BitVec 11) (s : State) : State :=
  (s.setY (initialY p off s.y)).whenBit i State.indirectY

/-- `OperandFetch`: Y takes the word at PC, PC advances over it, and with the indirect bit Y takes the word
at that address, with no auto-increment (R218, D15, D27). -/
def State.operandFetch (i : Bool) (s : State) : State :=
  let t := (s.setY (s.readWord s.pc)).advancePc
  t.setY (if i then t.readWord t.y else t.y)

/-- The address of the second word of a double word, (Y + 1) mod 2^32 (R73, R82). -/
def State.lowWordAddress (s : State) : Word := s.y + 1

end Sys2Proof.Machine
end

