-- ==== Sys2Proof/Machine/Mri.lean ====
section
/-! DEFINITION. The memory-referencing instructions AND, TAD, DCA, ISZ, JMS, JMP (spec/41_mri.md R140 to
R155). Each starts from the state whose Y is the effective address. -/

namespace Sys2Proof.Machine

/-- `if carry(AC + v) = 1 then L <- 1 - L; AC <- (AC + v) mod 2^32` (R147, R148). -/
def State.addToAc (v : Word) (s : State) : State :=
  (s.complementLinkOn (carryOut s.ac v false)).setAc (sumWord s.ac v false)

/-- ISZ's action at Y: the word is incremented, and S becomes 1 where the word READ BACK is 0 (R151, D24). -/
def State.incrementAtY (s : State) : State :=
  let t := s.writeWord s.y (s.readWord s.y + 1)
  t.skipWhen (t.readWord t.y == 0)

/-- JMS's action at Y: the link goes to `M[Y]` and control to Y + 1 (R152, D7, D30). -/
def State.linkAndJump (s : State) : State :=
  (s.writeWord s.y (s.pc + Config.jmsLinkDelta)).setPc (s.y + 1)

/-- AND: `AC <- AC & M[Y]` (R146). -/
def execAnd (i p : Bool) (off : BitVec 11) (s : State) : Host.Outcome State Fault Refusal :=
  let t := s.effectiveAddress i p off
  .next (t.setAc (t.ac &&& t.readWord t.y))

/-- TAD: AC plus `M[Y]`, a carry complements L (R147). -/
def execTad (i p : Bool) (off : BitVec 11) (s : State) : Host.Outcome State Fault Refusal :=
  let t := s.effectiveAddress i p off
  .next (t.addToAc (t.readWord t.y))

/-- DCA: `M[Y] <- AC; AC <- 0` (R149). -/
def execDca (i p : Bool) (off : BitVec 11) (s : State) : Host.Outcome State Fault Refusal :=
  let t := s.effectiveAddress i p off
  .next ((t.writeWord t.y t.ac).setAc 0)

/-- ISZ: increment `M[Y]` and skip if it is then 0 (R151). -/
def execIsz (i p : Bool) (off : BitVec 11) (s : State) : Host.Outcome State Fault Refusal :=
  .next (s.effectiveAddress i p off).incrementAtY

/-- JMS: `M[Y] <- PC + 1; PC <- Y + 1`, PC being the advanced PC (R152). -/
def execJms (i p : Bool) (off : BitVec 11) (s : State) : Host.Outcome State Fault Refusal :=
  .next (s.effectiveAddress i p off).linkAndJump

/-- JMP: `PC <- Y`, not checked against H (R153, D30). -/
def execJmp (i p : Bool) (off : BitVec 11) (s : State) : Host.Outcome State Fault Refusal :=
  let t := s.effectiveAddress i p off
  .next (t.setPc t.y)

end Sys2Proof.Machine
end

