-- ==== Sys2Proof/Machine/Group1.lean ====
section
/-! DEFINITION. Operate group 1 (spec/43_opr_group1.md R165 to R183). The micro-operations first, then one
meaning per constructor. The unassigned bits `u` select no action (R105, R183). -/

namespace Sys2Proof.Machine

/-! ### The micro-operations -/

/-- CLA: `AC <- 0` (R167). -/
def State.clearAc (s : State) : State := s.setAc 0

/-- CLL: `L <- 0` (R168). -/
def State.clearLink (s : State) : State := s.setL false

/-- CMA: `AC <- ~AC` (R169). -/
def State.complementAc (s : State) : State := s.setAc (~~~s.ac)

/-- CML: `L <- 1 - L` (R170). -/
def State.complementLink (s : State) : State := s.setL (!s.l)

/-- IAC: AC plus 1, a carry complements L (R171). -/
def State.incrementAc (s : State) : State := s.addToAc 1

/-- RAR: `B <- AC[0]; AC <- {L, AC[31:1]}; L <- B` (R174). -/
def State.rotateRight (s : State) : State :=
  let t := s.setB (s.ac.getLsbD 0)
  (t.setAc (BitVec.ofBool t.l ++ t.ac.extractLsb' 1 31)).setL t.b

/-- RAL: `B <- L; L <- AC[31]; AC <- {AC[30:0], B}` (R176, D8). -/
def State.rotateLeft (s : State) : State :=
  let t := s.setB s.l
  (t.setL (t.ac.getLsbD 31)).setAc (t.ac.extractLsb' 0 31 ++ BitVec.ofBool t.b)

/-- HSW: the two halfwords of AC change places (R178). -/
def State.swapHalfwords (s : State) : State :=
  s.setAc (s.ac.extractLsb' 0 16 ++ s.ac.extractLsb' 16 16)

/-- PCA: `AC <- PC`, the advanced PC (R179). -/
def State.pcToAc (s : State) : State := s.setAc s.pc

/-- BSW: `AC <- {AC[31:16], AC[11:8], AC[15:12], AC[3:0], AC[7:4]}` (R180, D20). -/
def State.swapNibbles (s : State) : State :=
  s.setAc (s.ac.extractLsb' 16 16 ++ s.ac.extractLsb' 8 4 ++ s.ac.extractLsb' 12 4
    ++ s.ac.extractLsb' 0 4 ++ s.ac.extractLsb' 4 4)

/-- The operation the selector RR, RL, RT names (R165, R172); RTR and RTL are two single rotates (R175,
R177). -/
def State.rotSelected (r : RotSel) (s : State) : State :=
  match r with
  | .noRot => s
  | .rar => s.rotateRight
  | .rtr => s.rotateRight.rotateRight
  | .ral => s.rotateLeft
  | .rtl => s.rotateLeft.rotateLeft
  | .hsw => s.swapHalfwords
  | .pca => s.pcToAc
  | .bsw => s.swapNibbles

/-- The whole of group 1: all applicable actions, in the fixed order (R165). -/
def State.group1Actions (f : Opr1) (s : State) : State :=
  (((((s.whenBit f.cla State.clearAc).whenBit f.cll State.clearLink).whenBit f.cma State.complementAc).whenBit
    f.cml State.complementLink).whenBit f.iac State.incrementAc).rotSelected f.rot

/-! ### The meanings -/

/-- A group 1 word of several actions, or of none (R165, R183). -/
def execGroup1 (f : Opr1) (_u : BitVec 4) (s : State) : Host.Outcome State Fault Refusal :=
  .next (s.group1Actions f)

/-- NOP (R181). -/
def execNop (s : State) : Host.Outcome State Fault Refusal := .next s

/-- CLA of group 1 (R167). -/
def execCla1 (_u : BitVec 4) (s : State) : Host.Outcome State Fault Refusal := .next s.clearAc

/-- CLL (R168). -/
def execCll (_u : BitVec 4) (s : State) : Host.Outcome State Fault Refusal := .next s.clearLink

/-- CMA (R169). -/
def execCma (_u : BitVec 4) (s : State) : Host.Outcome State Fault Refusal := .next s.complementAc

/-- CML (R170). -/
def execCml (_u : BitVec 4) (s : State) : Host.Outcome State Fault Refusal := .next s.complementLink

/-- IAC (R171). -/
def execIac (_u : BitVec 4) (s : State) : Host.Outcome State Fault Refusal := .next s.incrementAc

/-- RAR (R174). -/
def execRar (_u : BitVec 4) (s : State) : Host.Outcome State Fault Refusal := .next s.rotateRight

/-- RTR (R175). -/
def execRtr (_u : BitVec 4) (s : State) : Host.Outcome State Fault Refusal := .next s.rotateRight.rotateRight

/-- RAL (R176). -/
def execRal (_u : BitVec 4) (s : State) : Host.Outcome State Fault Refusal := .next s.rotateLeft

/-- RTL (R177). -/
def execRtl (_u : BitVec 4) (s : State) : Host.Outcome State Fault Refusal := .next s.rotateLeft.rotateLeft

/-- HSW (R178). -/
def execHsw (_u : BitVec 4) (s : State) : Host.Outcome State Fault Refusal := .next s.swapHalfwords

/-- PCA (R179). -/
def execPca (_u : BitVec 4) (s : State) : Host.Outcome State Fault Refusal := .next s.pcToAc

/-- BSW (R180). -/
def execBsw (_u : BitVec 4) (s : State) : Host.Outcome State Fault Refusal := .next s.swapNibbles

end Sys2Proof.Machine
end

