-- ==== Sys2Proof/Machine/Group2.lean ====
section
/-! DEFINITION. Operate group 2, the skips and HLT (spec/44_opr_group2.md R190 to R199). The unassigned bits
`u` select no action (R105, R199). -/

namespace Sys2Proof.Machine

/-- The tests of a group 2 word, in order, after the clear (R190 to R194). -/
def State.group2Tests (f : Opr2) (s : State) : State :=
  let t := s.whenBit f.cla State.clearAc
  ((t.skipWhen (f.sma && t.acMinus)).skipWhen (f.sza && t.acZero)).skipWhen (f.snl && t.linkOne)

/-- The whole of group 2: the clear, the tests, the reverse bit, the halt, in this order (R190, D21). -/
def State.group2Actions (reversed : Bool) (f : Opr2) (s : State) : State :=
  ((s.group2Tests f).whenBit reversed State.reverseSkip).whenBit f.hlt State.halt

/-- A group 2 word without the reverse bit, of several actions or of none (R190). -/
def execGroup2 (f : Opr2) (_u : BitVec 5) (s : State) : Host.Outcome State Fault Refusal :=
  .next (s.group2Actions false f)

/-- CLA of group 2 (R191). -/
def execCla2 (_u : BitVec 5) (s : State) : Host.Outcome State Fault Refusal := .next s.clearAc

/-- SMA (R192). -/
def execSma (_u : BitVec 5) (s : State) : Host.Outcome State Fault Refusal := .next (s.skipWhen s.acMinus)

/-- SZA (R193). -/
def execSza (_u : BitVec 5) (s : State) : Host.Outcome State Fault Refusal := .next (s.skipWhen s.acZero)

/-- SNL (R194). -/
def execSnl (_u : BitVec 5) (s : State) : Host.Outcome State Fault Refusal := .next (s.skipWhen s.linkOne)

/-- A group 2 word with the reverse bit and more than one test, or with CLA or HLT (R190, R195). -/
def execReverse (f : Opr2) (_u : BitVec 5) (s : State) : Host.Outcome State Fault Refusal :=
  .next (s.group2Actions true f)

/-- SPA, SMA with the reverse bit (R196). -/
def execSpa (_u : BitVec 5) (s : State) : Host.Outcome State Fault Refusal :=
  .next (s.skipWhen s.acMinus).reverseSkip

/-- SNA, SZA with the reverse bit (R196). -/
def execSna (_u : BitVec 5) (s : State) : Host.Outcome State Fault Refusal :=
  .next (s.skipWhen s.acZero).reverseSkip

/-- SZL, SNL with the reverse bit (R196). -/
def execSzl (_u : BitVec 5) (s : State) : Host.Outcome State Fault Refusal :=
  .next (s.skipWhen s.linkOne).reverseSkip

/-- SKP, the reverse bit and no test (R197). -/
def execSkp (_u : BitVec 5) (s : State) : Host.Outcome State Fault Refusal := .next s.reverseSkip

/-- HLT (R198). -/
def execHlt (_u : BitVec 5) (s : State) : Host.Outcome State Fault Refusal := .next s.halt

end Sys2Proof.Machine
end

