-- ==== Sys2Proof/Machine/Eae.lean ====
section
/-! DEFINITION. What the sixteen EOP operations do (spec/46_eae.md R215 to R236). Group 3 performs
one of them after its AC/MQ part (Machine/Group3.lean). -/

namespace Sys2Proof.Machine

/-! ### The shift steps on the 65-bit register L:AC:MQ (R216) -/

/-- ShiftLeft1: `L <- AC[31]; AC <- {AC[30:0], MQ[31]}; MQ <- {MQ[30:0], 0}`. -/
def State.shiftLeft1 (s : State) : State :=
  ((s.setL (s.ac.getLsbD 31)).setAc (s.ac.extractLsb' 0 31 ++ BitVec.ofBool (s.mq.getLsbD 31))).setMq
    (s.mq.extractLsb' 0 31 ++ 0#1)

/-- One right shift, the bit `fill` going to L and entering AC: `L <- fill; MQ <- {AC[0], MQ[31:1]};
AC <- {L, AC[31:1]}`. -/
def State.shiftRight1 (fill : Bool) (s : State) : State :=
  ((s.setL fill).setMq (BitVec.ofBool (s.ac.getLsbD 0) ++ s.mq.extractLsb' 1 31)).setAc
    (BitVec.ofBool fill ++ s.ac.extractLsb' 1 31)

/-- LogicalRight1: zero enters. -/
def State.logicalRight1 (s : State) : State := s.shiftRight1 false

/-- ArithRight1: the sign enters (D13). -/
def State.arithRight1 (s : State) : State := s.shiftRight1 (s.ac.getLsbD 31)

/-- `repeat SC times: step; SC <- 0` (R217). -/
def State.shiftBySc (step : State → State) (s : State) : State :=
  (State.repeatN s.sc.toNat step s).setSc 0

/-! ### The operations -/

/-- ASC: `SC <- AC[6:0]; AC <- 0` (R219, D6). -/
def State.acToSc (s : State) : State := (s.setSc (s.ac.extractLsb' 0 7)).setAc 0

/-- MUY with the multiplier in Y: `AC:MQ <- AC + Y * MQ; L <- 0; SC <- 0` (R220, D10). -/
def State.multiply (s : State) : State :=
  let p := s.ac.toNat + s.y.toNat * s.mq.toNat
  (((s.setAc (BitVec.ofNat 32 (p / 2 ^ 32))).setMq (BitVec.ofNat 32 p)).setL false).setSc 0

/-- Divide overflow: the divisor is 0 or AC >=u Y (R222, D11). -/
def State.divideOverflows (s : State) : Bool := s.y == 0 || decide (s.y.toNat ≤ s.ac.toNat)

/-- DVI with the divisor in Y: quotient to MQ, remainder to AC, L cleared; on divide overflow L is set and
AC and MQ take the free values of `DviOverflowResult` (R221, R222). -/
def State.divide (s : State) : State :=
  let n := s.ac.toNat * 2 ^ 32 + s.mq.toNat
  let t := if s.divideOverflows then
      ((s.setAc (Config.dviOverflowAc s.ac s.mq s.y)).setMq (Config.dviOverflowMq s.ac s.mq s.y)).setL true
    else ((s.setAc (BitVec.ofNat 32 (n % s.y.toNat))).setMq (BitVec.ofNat 32 (n / s.y.toNat))).setL false
  t.setSc 0

/-- The stopping condition of NMI: AC[31] and AC[30] differ, or AC:MQ is 0xC0000000:00000000 (R223). -/
def State.normalised (s : State) : Bool :=
  s.ac.getLsbD 31 != s.ac.getLsbD 30 || (s.ac == 0xC0000000 && s.mq == 0)

/-- One pass of NMI's loop: shift left and count (R223). -/
def State.normaliseStep (s : State) : State := s.shiftLeft1.setSc (s.sc + 1)

/-- NMI's loop, the test before each shift, for at most `n` shifts; none where it has not stopped (R223). -/
def State.normaliseLoop : Nat → State → Option State
  | 0, s => if s.normalised then some s else none
  | n + 1, s => if s.normalised then some s else State.normaliseLoop n s.normaliseStep

/-- NMI: `SC <- 0`, then the loop; a loop that never ends is a stuck machine (R223, D12). -/
def State.normalise (s : State) : Host.Outcome State Fault Refusal :=
  match State.normaliseLoop Config.nmiShiftBound (s.setSc 0) with
  | some t => .next t
  | none => .fault .nmiNeverEnds

/-- SCA: `AC <- AC | zext_7(SC)` (R228). -/
def State.scToAc (s : State) : State := s.setAc (s.ac ||| s.sc.setWidth 32)

/-- DAD with the address in Y: the double word at Y added to AC:MQ, L set to the carry out of AC (R230). -/
def State.doubleAdd (s : State) : State :=
  let lowWord := s.readWord s.lowWordAddress
  let highWord := s.readWord s.y
  let c := carryOut s.mq lowWord false
  ((s.setMq (sumWord s.mq lowWord false)).setAc (sumWord s.ac highWord c)).setL (carryOut s.ac highWord c)

/-- DST with the address in Y: `M[Y] <- AC; M[Y+1] <- MQ` (R231). -/
def State.doubleStore (s : State) : State :=
  (s.writeWord s.y s.ac).writeWord s.lowWordAddress s.mq

/-- DPIC: AC:MQ plus 1, L set to the carry out of AC (R232). -/
def State.doubleIncrement (s : State) : State :=
  let c := carryOut s.mq 1 false
  ((s.setMq (sumWord s.mq 1 false)).setAc (sumWord s.ac 0 c)).setL (carryOut s.ac 0 c)

/-- DPSZ: S becomes 1 if AC and MQ are both 0, else 0 (R233). -/
def State.doubleSkip (s : State) : State := s.setSkip s.doubleZero

/-- DCM: `AC <- ~AC; MQ <- ~MQ` (R234). -/
def State.doubleComplement (s : State) : State := (s.setAc (~~~s.ac)).setMq (~~~s.mq)

/-- SAM: `L <- 1 if MQ <u AC else 0; AC <- MQ - AC` (R235, D22). -/
def State.subtractFromMq (s : State) : State :=
  (s.setL (borrowOut s.mq s.ac)).setAc (s.mq - s.ac)

end Sys2Proof.Machine
end

