-- ==== Sys2Proof/Machine/Group3.lean ====
section
/-! DEFINITION. Operate group 3 (spec/45_opr_group3_mq.md R205 to R212, spec/46_eae.md R215 to R236): the
AC/MQ part, then exactly one EOP operation, in one step (D29). Every group 3 instruction sets EOP. The
unassigned bits `u`, and the indirect bit where the EOP operation takes no operand word, select no action
(R105, R211). -/

namespace Sys2Proof.Machine

/-- EOP takes the value that selects the operation (R205, R210). -/
def State.selectEop (e : Eop) (s : State) : State := s.setEop e.code

/-- MQA: `AC <- AC | MQ` (R207). -/
def State.mqIntoAc (s : State) : State := s.setAc (s.ac ||| s.mq)

/-- MQL: `MQ <- AC`; AC is not cleared (R208). -/
def State.loadMq (s : State) : State := s.setMq s.ac

/-- SWP: `(AC, MQ) <- (MQ, AC)` (R209, D9). -/
def State.exchange (s : State) : State := (s.setAc s.mq).setMq s.ac

/-- The AC/MQ part: CLA first, then at most one of MQA, MQL, SWP (R205). -/
def State.acMqPart (f : Opr3) (s : State) : State :=
  let t := s.whenBit f.cla State.clearAc
  match f.mq with
  | .noMq => t
  | .mqa => t.mqIntoAc
  | .mql => t.loadMq
  | .swp => t.exchange

/-- The EOP operation (R210, R215), EOP itself being set first. -/
def State.performEop (e : Eop) (i : Bool) (s : State) : Host.Outcome State Fault Refusal :=
  let t := s.selectEop e
  match e with
  | .none0 => .next t
  | .asc => .next t.acToSc
  | .muy => .next (t.operandFetch i).multiply
  | .dvi => .next (t.operandFetch i).divide
  | .nmi => t.normalise
  | .shl => .next (t.shiftBySc State.shiftLeft1)
  | .lsr => .next (t.shiftBySc State.logicalRight1)
  | .asr => .next (t.shiftBySc State.arithRight1)
  | .sca => .next t.scToAc
  | .dad => .next (t.operandFetch i).doubleAdd
  | .dst => .next (t.operandFetch i).doubleStore
  | .noneB => .next t
  | .dpic => .next t.doubleIncrement
  | .dpsz => .next t.doubleSkip
  | .dcm => .next t.doubleComplement
  | .sam => .next t.subtractFromMq

/-- A group 3 word of several actions: the AC/MQ part, then the EOP operation (R205, R212). -/
def execGroup3 (f : Opr3) (i : Bool) (_u : BitVec 3) (s : State) : Host.Outcome State Fault Refusal :=
  (s.acMqPart f).performEop f.eop i

/-- CLA of group 3 (R206). -/
def execCla3 (_i : Bool) (_u : BitVec 3) (s : State) : Host.Outcome State Fault Refusal :=
  .next (s.clearAc.selectEop .none0)

/-- MQA (R207). -/
def execMqa (_i : Bool) (_u : BitVec 3) (s : State) : Host.Outcome State Fault Refusal :=
  .next (s.mqIntoAc.selectEop .none0)

/-- MQL (R208). -/
def execMql (_i : Bool) (_u : BitVec 3) (s : State) : Host.Outcome State Fault Refusal :=
  .next (s.loadMq.selectEop .none0)

/-- SWP (R209). -/
def execSwp (_i : Bool) (_u : BitVec 3) (s : State) : Host.Outcome State Fault Refusal :=
  .next (s.exchange.selectEop .none0)

/-- EOP 0x0: no action (R229). -/
def execEop0 (_i : Bool) (_u : BitVec 3) (s : State) : Host.Outcome State Fault Refusal :=
  .next (s.selectEop .none0)

/-- ASC (R219). -/
def execAsc (_i : Bool) (_u : BitVec 3) (s : State) : Host.Outcome State Fault Refusal :=
  .next (s.selectEop .asc).acToSc

/-- MUY (R220). -/
def execMuy (i : Bool) (_u : BitVec 3) (s : State) : Host.Outcome State Fault Refusal :=
  .next ((s.selectEop .muy).operandFetch i).multiply

/-- DVI (R221, R222). -/
def execDvi (i : Bool) (_u : BitVec 3) (s : State) : Host.Outcome State Fault Refusal :=
  .next ((s.selectEop .dvi).operandFetch i).divide

/-- NMI (R223). -/
def execNmi (_i : Bool) (_u : BitVec 3) (s : State) : Host.Outcome State Fault Refusal :=
  (s.selectEop .nmi).normalise

/-- SHL (R224). -/
def execShl (_i : Bool) (_u : BitVec 3) (s : State) : Host.Outcome State Fault Refusal :=
  .next ((s.selectEop .shl).shiftBySc State.shiftLeft1)

/-- LSR (R225). -/
def execLsr (_i : Bool) (_u : BitVec 3) (s : State) : Host.Outcome State Fault Refusal :=
  .next ((s.selectEop .lsr).shiftBySc State.logicalRight1)

/-- ASR (R226). -/
def execAsr (_i : Bool) (_u : BitVec 3) (s : State) : Host.Outcome State Fault Refusal :=
  .next ((s.selectEop .asr).shiftBySc State.arithRight1)

/-- SCA (R228). -/
def execSca (_i : Bool) (_u : BitVec 3) (s : State) : Host.Outcome State Fault Refusal :=
  .next (s.selectEop .sca).scToAc

/-- DAD (R230). -/
def execDad (i : Bool) (_u : BitVec 3) (s : State) : Host.Outcome State Fault Refusal :=
  .next ((s.selectEop .dad).operandFetch i).doubleAdd

/-- DST (R231, D14). -/
def execDst (i : Bool) (_u : BitVec 3) (s : State) : Host.Outcome State Fault Refusal :=
  .next ((s.selectEop .dst).operandFetch i).doubleStore

/-- EOP 0xB: no action (R229). -/
def execEopB (_i : Bool) (_u : BitVec 3) (s : State) : Host.Outcome State Fault Refusal :=
  .next (s.selectEop .noneB)

/-- DPIC (R232). -/
def execDpic (_i : Bool) (_u : BitVec 3) (s : State) : Host.Outcome State Fault Refusal :=
  .next (s.selectEop .dpic).doubleIncrement

/-- DPSZ (R233). -/
def execDpsz (_i : Bool) (_u : BitVec 3) (s : State) : Host.Outcome State Fault Refusal :=
  .next (s.selectEop .dpsz).doubleSkip

/-- DCM (R234). -/
def execDcm (_i : Bool) (_u : BitVec 3) (s : State) : Host.Outcome State Fault Refusal :=
  .next (s.selectEop .dcm).doubleComplement

/-- SAM (R235). -/
def execSam (_i : Bool) (_u : BitVec 3) (s : State) : Host.Outcome State Fault Refusal :=
  .next (s.selectEop .sam).subtractFromMq

end Sys2Proof.Machine
end

