-- ==== Sys2Proof/Machine/Imm.lean ====
section
/-! DEFINITION. IMM, load immediate (spec/40_cycle_and_imm.md R126). -/

namespace Sys2Proof.Machine

/-- IMM: `IR[31] <- IR[30]; AC <- IR` (R126). -/
def execImm (v : BitVec 31) (s : State) : Host.Outcome State Fault Refusal :=
  .next ((s.setIr (immediate v)).setAc (immediate v))

end Sys2Proof.Machine
end

