-- ==== Sys2Proof/Machine/Iot.lean ====
section
/-! DEFINITION. The input/output class (spec/42_iot.md R160 to R162). -/

namespace Sys2Proof.Machine

/-- (D, DOP) is defined in the device set (R160). -/
def State.deviceDefined (s : State) (d : BitVec 8) (dop : BitVec 4) : Bool := s.devices.contains (d, dop)

/-- IOT: D and DOP take their fields; an unknown device or operation takes no action, and what a defined
device does is in no document of the spec (R160, R161, U3; log entry 11). The bit `x` is ignored (R105). -/
def execIot (_x : Bool) (d : BitVec 8) (dop : BitVec 4) (s : State) : Host.Outcome State Fault Refusal :=
  if s.deviceDefined d dop then .refused (.deviceUndescribed d dop) else .next ((s.setD d).setDop dop)

end Sys2Proof.Machine
end

