-- ==== Sys2Proof/Machine/Dispatch.lean ====
section
/-! DEFINITION. `exec`: one arm per constructor, each one direct call of its meaning. -/

namespace Sys2Proof.Machine

def exec (i : Instr) (s : State) : Host.Outcome State Fault Refusal :=
  match i with
  | .imm v => Sys2Proof.Machine.execImm v s
  | .and ind p off => Sys2Proof.Machine.execAnd ind p off s
  | .tad ind p off => Sys2Proof.Machine.execTad ind p off s
  | .dca ind p off => Sys2Proof.Machine.execDca ind p off s
  | .isz ind p off => Sys2Proof.Machine.execIsz ind p off s
  | .jms ind p off => Sys2Proof.Machine.execJms ind p off s
  | .jmp ind p off => Sys2Proof.Machine.execJmp ind p off s
  | .iot x d dop => Sys2Proof.Machine.execIot x d dop s
  | .group1 f u => Sys2Proof.Machine.execGroup1 f u s
  | .nop => Sys2Proof.Machine.execNop s
  | .cla1 u => Sys2Proof.Machine.execCla1 u s
  | .cll u => Sys2Proof.Machine.execCll u s
  | .cma u => Sys2Proof.Machine.execCma u s
  | .cml u => Sys2Proof.Machine.execCml u s
  | .iac u => Sys2Proof.Machine.execIac u s
  | .rar u => Sys2Proof.Machine.execRar u s
  | .rtr u => Sys2Proof.Machine.execRtr u s
  | .ral u => Sys2Proof.Machine.execRal u s
  | .rtl u => Sys2Proof.Machine.execRtl u s
  | .hsw u => Sys2Proof.Machine.execHsw u s
  | .pca u => Sys2Proof.Machine.execPca u s
  | .bsw u => Sys2Proof.Machine.execBsw u s
  | .group2 f u => Sys2Proof.Machine.execGroup2 f u s
  | .cla2 u => Sys2Proof.Machine.execCla2 u s
  | .sma u => Sys2Proof.Machine.execSma u s
  | .sza u => Sys2Proof.Machine.execSza u s
  | .snl u => Sys2Proof.Machine.execSnl u s
  | .reverse f u => Sys2Proof.Machine.execReverse f u s
  | .spa u => Sys2Proof.Machine.execSpa u s
  | .sna u => Sys2Proof.Machine.execSna u s
  | .szl u => Sys2Proof.Machine.execSzl u s
  | .skp u => Sys2Proof.Machine.execSkp u s
  | .hlt u => Sys2Proof.Machine.execHlt u s
  | .group3 f ind u => Sys2Proof.Machine.execGroup3 f ind u s
  | .cla3 ind u => Sys2Proof.Machine.execCla3 ind u s
  | .mqa ind u => Sys2Proof.Machine.execMqa ind u s
  | .mql ind u => Sys2Proof.Machine.execMql ind u s
  | .swp ind u => Sys2Proof.Machine.execSwp ind u s
  | .eop0 ind u => Sys2Proof.Machine.execEop0 ind u s
  | .asc ind u => Sys2Proof.Machine.execAsc ind u s
  | .muy ind u => Sys2Proof.Machine.execMuy ind u s
  | .dvi ind u => Sys2Proof.Machine.execDvi ind u s
  | .nmi ind u => Sys2Proof.Machine.execNmi ind u s
  | .shl ind u => Sys2Proof.Machine.execShl ind u s
  | .lsr ind u => Sys2Proof.Machine.execLsr ind u s
  | .asr ind u => Sys2Proof.Machine.execAsr ind u s
  | .sca ind u => Sys2Proof.Machine.execSca ind u s
  | .dad ind u => Sys2Proof.Machine.execDad ind u s
  | .dst ind u => Sys2Proof.Machine.execDst ind u s
  | .eopB ind u => Sys2Proof.Machine.execEopB ind u s
  | .dpic ind u => Sys2Proof.Machine.execDpic ind u s
  | .dpsz ind u => Sys2Proof.Machine.execDpsz ind u s
  | .dcm ind u => Sys2Proof.Machine.execDcm ind u s
  | .sam ind u => Sys2Proof.Machine.execSam ind u s

end Sys2Proof.Machine
end

