-- ==== Sys2Proof/Machine/Cycle.lean ====
section
/-! DEFINITION. The instruction cycle (spec/40_cycle_and_imm.md R120 to R127), and placing a table word
where the cycle fetches. -/

namespace Sys2Proof.Machine

/-- Execute the word in IR: decode and dispatch; a reserved word is refused (R93, R125, R266). -/
def State.executeIr (s : State) : Host.Outcome State Fault Refusal :=
  match decode s.ir with
  | .ok i => exec i s
  | .error (.reserved w) => .refused (.reservedWord w)

/-- The cycle: a running machine fetches one word and, where S is 1, skips it undecoded, else executes it;
a halted machine changes nothing (R120, R123, R127, R262). -/
def State.cycle (s : State) : Host.Outcome State Fault Refusal :=
  if s.run then
    let t := s.fetch
    if t.skip then .next t.skipFetched else t.executeIr
  else .next s

/-- A table word placed where the next cycle fetches: the machine running with no skip pending, PC kept
where it names an existing word (else 0), the instruction word at PC, and its operand word (bits 63..32)
at the address the fetch advances to. -/
def State.placeTableWord (s : State) (nbits w : Nat) : State :=
  let pc := if s.existsAt s.pc then s.pc else 0
  let t := ((s.setRun true).setSkip false).setPc pc
  (t.writeWord (nextAddress s.h pc) (BitVec.ofNat 32 (w % 2 ^ nbits / 2 ^ 32))).writeWord pc
    (BitVec.ofNat 32 (w % 2 ^ nbits))

end Sys2Proof.Machine
end

