-- ==== Sys2Proof/Machine/Step.lean ====
section
/-! DEFINITION. One step of the machine, which is one instruction cycle (spec/40_cycle_and_imm.md R120), and
the state whose next step runs a given word. -/

namespace Sys2Proof.Machine

/-- One step: one instruction, or one skipped word, or nothing while halted (R120, R290). -/
def step (s : State) : Host.Outcome State Fault Refusal := s.cycle

/-- The state whose very next step fetches and runs the instruction of a table word. -/
def State.withFetchWord (s : State) (nbits w : Nat) : State := s.placeTableWord nbits w

end Sys2Proof.Machine
end

