-- ==== Sys2Proof/Safety.lean ====
section
/-! DEFINITION. The terms statements are made in: the invariant of the state, the state R41 says a step
carries, the double registers as numbers, and instructions run one after another. -/

namespace Sys2Proof.Machine

/-! ### The invariant -/

/-- H has the form the spec decides on: whole pages, at least page zero, at most 2^30 words (R64, D16). -/
def legalH (h : Word) : Bool :=
  decide (0x7FF ≤ h.toNat) && decide (h.toNat ≤ 0x3FFFFFFF) && h.toNat % 2048 == 2047

/-- A page selector holds an address whose low-order 11 bits are 0 (R27, R28). -/
def legalSelector (v : Word) : Bool := v.toNat % 2048 == 0

/-- Only existing addresses are listed in the memory (R64, R66). -/
def State.listsOnlyExisting (s : State) : Bool := s.mem.all (fun c => decide (c.1 ≤ s.h.toNat))

/-- The invariant of the machine: the memory in its canonical form and within H, H legal, BASE and SBASE
with their low 11 bits 0. -/
def State.inv (s : State) : Bool :=
  s.mem.wf && s.listsOnlyExisting && legalH s.h && legalSelector s.base && legalSelector s.sbase

/-! ### What a step carries -/

/-- The state with the registers of the explanation, and BASE and SBASE, blotted out: what is left is what
R41 says a step carries (AC, MQ, L, PC, S, SC, RUN, M) and the parameters H and DEVICES. -/
def State.carried (s : State) : State :=
  { s with base := 0, sbase := 0, ir := 0, op := 0, y := 0, d := 0, dop := 0, b := false, eop := 0 }

/-- An outcome with its next state mapped. -/
def mapNext (f : State → State) : Host.Outcome State Fault Refusal → Host.Outcome State Fault Refusal
  | .next t => .next (f t)
  | .fault r => .fault r
  | .refused r => .refused r

/-! ### The registers as numbers -/

/-- The joint 33-bit ring {L, AC} of the rotates (R173). -/
def State.ring (s : State) : BitVec 33 := BitVec.ofBool s.l ++ s.ac

/-- AC:MQ as a 64-bit unsigned number, AC the high word (R236). -/
def State.double (s : State) : Nat := s.ac.toNat * 2 ^ 32 + s.mq.toNat

/-- AC:MQ as a 64-bit two's complement number (R226). -/
def State.doubleInt (s : State) : Int := s.ac.toInt * 2 ^ 32 + s.mq.toNat

/-- The 65-bit register L:AC:MQ as a number (R216). -/
def State.triple (s : State) : Nat := s.l.toNat * 2 ^ 64 + s.double

/-- A word with the 4-bit halves of each of its two low bytes exchanged, by the masks 0x0F0F and 0xF0F0
(R180). -/
def swappedNibbles (v : Word) : Word :=
  (v &&& 0xFFFF0000#32) ||| ((v &&& 0x0F0F#32) <<< 4) ||| ((v &&& 0xF0F0#32) >>> 4)

/-! ### Addresses -/

/-- The address the page bit and the offset of an instruction form, by arithmetic: the offset in page zero,
or in the page of the address `y` (R141). -/
def directAddress (p : Bool) (off : BitVec 11) (y : Word) : Nat :=
  (if p then y.toNat / 2048 * 2048 else 0) + off.toNat

/-- The word of a memory-referencing instruction, `base | I<<12 | P<<11 | offset` (R95). -/
def mriWord (base : Word) (i p : Bool) (off : BitVec 11) : Word :=
  base ||| (if i then 0x1000#32 else 0#32) ||| (if p then 0x0800#32 else 0#32) ||| off.setWidth 32

/-- The operand of MUY, DVI, DAD and DST: the word at PC, or with the indirect bit the word at that address
(R218). -/
def State.operandWord (i : Bool) (s : State) : Word :=
  if i then s.readWord (s.readWord s.pc) else s.readWord s.pc

/-! ### Kinds of instruction -/

/-- A memory-referencing instruction (R140). -/
def isMri : Instr → Bool
  | .and _ _ _ | .tad _ _ _ | .dca _ _ _ | .isz _ _ _ | .jms _ _ _ | .jmp _ _ _ => true
  | _ => false

/-- JMS or JMP, the two instructions that load PC with an unchecked value (R25, R124). -/
def isJump : Instr → Bool
  | .jms _ _ _ | .jmp _ _ _ => true
  | _ => false

/-! ### Instructions one after another -/

/-- The instructions of a list executed in order, each on the state the one before left. -/
def execAll : List Instr → State → Host.Outcome State Fault Refusal
  | [], s => .next s
  | i :: is, s =>
    match exec i s with
    | .next t => execAll is t
    | .fault r => .fault r
    | .refused r => .refused r

/-- The single-action instruction of a rotate selector (R172). -/
def rotInstrs : RotSel → List Instr
  | .noRot => []
  | .rar => [.rar 0]
  | .rtr => [.rtr 0]
  | .ral => [.ral 0]
  | .rtl => [.rtl 0]
  | .hsw => [.hsw 0]
  | .pca => [.pca 0]
  | .bsw => [.bsw 0]

/-- The single-action instructions of a group 1 set, in the fixed order of R165. -/
def group1Parts (f : Opr1) : List Instr :=
  (if f.cla then [.cla1 0] else []) ++ (if f.cll then [.cll 0] else []) ++
  (if f.cma then [.cma 0] else []) ++ (if f.cml then [.cml 0] else []) ++
  (if f.iac then [.iac 0] else []) ++ rotInstrs f.rot

/-- The single-action instruction of an EOP operation (R210). -/
def eopInstr (e : Eop) (i : Bool) (u : BitVec 3) : Instr :=
  match e with
  | .none0 => .eop0 i u
  | .asc => .asc i u
  | .muy => .muy i u
  | .dvi => .dvi i u
  | .nmi => .nmi i u
  | .shl => .shl i u
  | .lsr => .lsr i u
  | .asr => .asr i u
  | .sca => .sca i u
  | .dad => .dad i u
  | .dst => .dst i u
  | .noneB => .eopB i u
  | .dpic => .dpic i u
  | .dpsz => .dpsz i u
  | .dcm => .dcm i u
  | .sam => .sam i u

/-- The single-action instruction of the AC/MQ part of group 3, CLA apart (R205). -/
def mqInstrs : MqSel → List Instr
  | .noMq => []
  | .mqa => [.mqa false 0]
  | .mql => [.mql false 0]
  | .swp => [.swp false 0]

/-- The single-action instructions of a group 3 set, in the fixed order of R205. -/
def group3Parts (f : Opr3) (i : Bool) (u : BitVec 3) : List Instr :=
  (if f.cla then [.cla3 false 0] else []) ++ mqInstrs f.mq ++ [eopInstr f.eop i u]

end Sys2Proof.Machine

namespace Sys2Proof

open Machine

/-- A run is safe while no step stops: what a claim about a run means by "the machine goes on". -/
def completes (o : Host.Outcome State Fault Refusal) : Prop := ∃ t, o = .next t

end Sys2Proof
end

