-- ==== Sys2Proof/Certificates/Slice0/Obligations.lean ====
section
/-! DEFINITION. The statements for the provers. Each docstring names the rules of spec/ it formalises. -/

open Sys2Proof Sys2Proof.Machine

/-! ### Encoding -/

/-- Decoding the encoding of a well-formed instruction gives the instruction back (R94 to R105; the place of OP
is the spec's decision D1). That a set of actions is written by its class row is the model's choice (log entry
7). -/
def Obligations.DecodeOfEncodeIsTheInstruction : Prop :=
  ∀ i : Instr, i.wellFormed = true → decode (encode i) = .ok i

/-- Every word the decoder accepts is the encoding of the well-formed instruction it decodes to: no bit of
a word is dropped (R94 to R105; the place of OP is the spec's decision D1; log entry 7). -/
def Obligations.EncodeOfDecodeIsTheWord : Prop :=
  ∀ (w : Word) (i : Instr), decode w = .ok i → i.wellFormed = true ∧ encode i = w

/-- The decoder accepts exactly the 2^31 IMM words and the 65536 words below 2^16 (R104; that the
rest is reserved is the spec's decision D1, log entry 15). -/
def Obligations.DecoderAcceptsExactlyTheDefinedWords : Prop :=
  ∀ w : Word, (∃ i, decode w = .ok i) ↔ (2 ^ 31 ≤ w.toNat ∨ w.toNat < 2 ^ 16)

/-- A word with IR[31] = 0 and IR[30:16] not 0 is reported as reserved by the decoder and refused by the
machine that would execute it (R93, the spec's decision D1). -/
def Obligations.ReservedWordIsRefused : Prop :=
  ∀ (s : State) (w : Word), w.getLsbD 31 = false → w.extractLsb' 16 15 ≠ 0 →
    decode w = .error (.reserved w) ∧
    (s.run = true → s.skip = false → s.readWord s.pc = w → step s = .refused (.reservedWord w))

/-- Words written out from the format tables decode to the instructions they stand for (R94 to R99; the place
of OP is the spec's decision D1). -/
def Obligations.WrittenOutWordsDecode : Prop :=
  decode 0xC0000000 = .ok (.imm 0x40000000) ∧
  decode 0x00003210 = .ok (.tad true false 0x210) ∧
  decode 0x00008820 = .ok (.jms false true 0x020) ∧
  decode 0x0000C345 = .ok (.iot false 0x34 5) ∧
  decode 0x0000E012 = .ok (.rtr 0) ∧
  decode 0x0000E365 =
    .ok (.group1 { cla := true, cll := true, cma := true, cml := true, iac := true, rot := .ral } 0) ∧
  decode 0x0000E850 = .ok (.sna 0) ∧
  decode 0x0000E842 = .ok (.group2 { sza := true, hlt := true } 0) ∧
  decode 0x0000F831 = .ok (.dvi true 0) ∧
  decode 0x0000EDF1 = .ok (.group3 { mq := .swp, eop := .sam } false 0)

/-! ### The cycle -/

/-- One step: fetch (IR takes M[PC], Y takes PC, OP takes IR[15:13]) and advance PC with the wrap at H; then,
where S is 1, clear S and do nothing else, and where S is 0, execute the decoded instruction (R120, R121,
R122). The spec's own decisions: Y takes the fetch address (D4), S is cleared by a skipped word only (D3),
and a machine that is not running takes no step (D25; the model's step then answers the same state, log
entry 13). -/
def Obligations.StepRunsTheDecodedInstruction : Prop :=
  ∀ s : State,
    let w := s.readWord s.pc
    let fetched : State := { s with
      ir := w, y := s.pc, op := w.extractLsb' 13 3,
      pc := if (s.pc.toNat + 1) % 2 ^ 32 ≤ s.h.toNat then s.pc + 1 else 0 }
    (s.run = true → s.skip = false → ∀ i, decode w = .ok i → step s = exec i fetched) ∧
    (s.run = true → s.skip = true → step s = .next { fetched with skip := false }) ∧
    (s.run = false → step s = .next s)

/-- After a step of a running machine that executed neither JMS nor JMP, PC is at most H (what the spec derives
in R124 (b); over an operand word it rests on the spec's decision D15). -/
def Obligations.PcStaysWithinMemoryUnlessJump : Prop :=
  ∀ s t : State, s.run = true → step s = .next t →
    (s.skip = true ∨ ∀ i, decode (s.readWord s.pc) = .ok i → isJump i = false) →
    t.pc.toNat ≤ t.h.toNat

/-- HLT clears RUN and nothing else; a halted machine does not change; the external restart sets RUN and
nothing else, so the next step is the one the machine would have taken (R198, R262; RUN and the restart are
the spec's decision D25). -/
def Obligations.HltHaltsAndRestartResumes : Prop :=
  encode (.hlt 0) = 0x0000E802 ∧
  (∀ (u : BitVec 5) (s : State), exec (.hlt u) s = .next { s with run := false }) ∧
  (∀ s : State, s.run = false → step s = .next s) ∧
  (∀ s : State, s.run = false → s.restart = { s with run := true })

/-- A step of a running machine leaves it halted exactly when it executed, not skipped, a group 2 word with
IR[1] = 1 (R198, R279, and R266, which the spec derives; RUN is the spec's decision D25, the place of OP is
D1). -/
def Obligations.OnlyHltStopsTheProcessor : Prop :=
  ∀ s t : State, s.run = true → step s = .next t →
    (t.run = false ↔
      s.skip = false ∧ (s.readWord s.pc).toNat < 2 ^ 16 ∧ (s.readWord s.pc).extractLsb' 13 3 = 7 ∧
      (s.readWord s.pc).getLsbD 11 = true ∧ (s.readWord s.pc).getLsbD 1 = true ∧
      (s.readWord s.pc).getLsbD 0 = false)

/-- A step goes on, or it is one of three stops: a reserved word, an input/output instruction a device
defines, or an NMI that finds AC = MQ = 0 (R250, and R266, which the spec derives; decisions D1, D12 and D31
of the spec). That a defined device is refused is the model's choice (log entry 11). -/
def Obligations.StepStopsOnlyInThreeCases : Prop :=
  ∀ s : State, completes (step s) ∨
    (s.run = true ∧ s.skip = false ∧
      ((2 ^ 16 ≤ (s.readWord s.pc).toNat ∧ (s.readWord s.pc).toNat < 2 ^ 31 ∧
          step s = .refused (.reservedWord (s.readWord s.pc))) ∨
       (∃ x d dop, decode (s.readWord s.pc) = .ok (.iot x d dop) ∧ (d, dop) ∈ s.devices ∧
          step s = .refused (.deviceUndescribed d dop)) ∨
       (∃ f i u, (decode (s.readWord s.pc) = .ok (.group3 f i u) ∨
            (f = { eop := .nmi } ∧ decode (s.readWord s.pc) = .ok (.nmi i u))) ∧
          f.eop = .nmi ∧ (s.acMqPart f).ac = 0 ∧ (s.acMqPart f).mq = 0 ∧
          step s = .fault .nmiNeverEnds)))

/-- What a step does to AC, MQ, L, PC, S, SC, RUN and the memory depends on nothing else of the state but the
parameters: the registers of the explanation, and BASE and SBASE, carry nothing between steps (R41, which
the spec derives; that a divide overflow leaves the same values for the same operands is log entry 2). -/
def Obligations.ExplanationRegistersCarryNothing : Prop :=
  ∀ s t : State, s.carried = t.carried → mapNext State.carried (step s) = mapNext State.carried (step t)

/-- No instruction reads or writes BASE or SBASE (R27, R28; inert by the spec's decision D26), and no step
changes the parameters H and DEVICES (R37). That a divide overflow leaves the same AC and MQ in the two steps
compared is the model's choice (log entry 2). -/
def Obligations.PageSelectorsAreInert : Prop :=
  ∀ (s : State) (x y : Word),
    step { s with base := x, sbase := y } = mapNext (fun t => { t with base := x, sbase := y }) (step s) ∧
    ∀ t, step s = .next t → t.h = s.h ∧ t.devices = s.devices

/-- Every step keeps the invariant: the memory in its canonical form and within H, H legal, and the low 11
bits of BASE and SBASE 0 (R27, R28, R37, R66; the form of H is the spec's decision D16, R64; the canonical
form of the memory is the model's, log entry 4). -/
def Obligations.EveryStepKeepsTheInvariant : Prop :=
  ∀ s t : State, s.inv = true → step s = .next t → t.inv = true

/-- The state right after reset meets the invariant, with the launch premises RUN = 1 and S = 0 of R275. The
reset values themselves are the model's choice (log entries 1, 3 and 6). -/
def Obligations.ResetMeetsTheInvariant : Prop :=
  State.reset.inv = true ∧ State.reset.run = true ∧ State.reset.skip = false ∧
  ∀ a : Word, State.reset.readWord a = 0

/-! ### Memory -/

/-- A read after a write finds the word written where the address exists; every other address reads as
before; a write to a non-existent address does nothing, and such an address reads 0 (R65, R66; that an
address exists exactly up to H is the spec's decision D16). -/
def Obligations.ReadAfterWriteFindsTheWord : Prop :=
  ∀ (s : State) (a v : Word), s.mem.wf = true →
    (a.toNat ≤ s.h.toNat → (s.writeWord a v).readWord a = v) ∧
    (∀ b, b ≠ a → (s.writeWord a v).readWord b = s.readWord b) ∧
    (s.h.toNat < a.toNat → s.writeWord a v = s ∧ s.readWord a = 0) ∧
    { s.writeWord a v with mem := s.mem } = s

/-- The page probe: after a non-zero word is written to a word that reads 0, that word reads 0 again exactly
where the address does not exist, and where it exists writing 0 restores the state (R68; that an address
exists exactly up to H is the spec's decision D16). -/
def Obligations.PageProbeTellsExistence : Prop :=
  ∀ (s : State) (a v : Word), s.mem.wf = true → s.readWord a = 0 → v ≠ 0 →
    ((s.writeWord a v).readWord a = 0 ↔ s.h.toNat < a.toNat) ∧
    (s.writeWord a v).writeWord a 0 = s

/-- A store is seen by the very next fetch: where a direct DCA stores into the word after itself, the next
fetch reads the stored word (R281, and R81, which the spec derives; that the next word exists, being at most
H, is the spec's decision D16, log entry 24). -/
def Obligations.StoredWordIsFetchedNext : Prop :=
  ∀ (s : State) (p : Bool) (off : BitVec 11), s.inv = true → s.run = true → s.skip = false →
    decode (s.readWord s.pc) = .ok (.dca false p off) →
    directAddress p off s.pc = (nextAddress s.h s.pc).toNat →
    ∃ t, step s = .next t ∧ t.fetch.ir = s.ac ∧ t.ac = 0

/-! ### Memory-referencing instructions -/

/-- The effective address: the offset in page zero or in the page Y holds; with the indirect bit the word
there, the pointer being incremented in memory first where it lies at 0x200 to 0x2FF (R141, R142, R143; that
Y holds the instruction's own address is the spec's decision D4, and that page zero exists is D16). Nothing
else changes. -/
def Obligations.EffectiveAddressIsFormedAsStated : Prop :=
  ∀ (s : State) (i p : Bool) (off : BitVec 11), s.inv = true →
    let a := BitVec.ofNat 32 (directAddress p off s.y)
    let e := s.effectiveAddress i p off
    (i = false → e = { s with y := a }) ∧
    (i = true → ¬ (0x200 ≤ a.toNat ∧ a.toNat ≤ 0x2FF) → e = { s with y := s.readWord a }) ∧
    (i = true → 0x200 ≤ a.toNat → a.toNat ≤ 0x2FF →
      e.y = s.readWord a + 1 ∧ e.readWord a = s.readWord a + 1 ∧
      (∀ b, b ≠ a → e.readWord b = s.readWord b) ∧
      { e with mem := s.mem, y := s.y } = s)

/-- AND: AC takes AC & M[Y], Y being the effective address; nothing else changes beyond the address step
(R146). -/
def Obligations.AndMasksAc : Prop :=
  ∀ (i p : Bool) (off : BitVec 11) (s : State),
    let e := s.effectiveAddress i p off
    encode (.and i p off) = mriWord 0x00000000 i p off ∧
    exec (.and i p off) s = .next { e with ac := s.ac &&& e.readWord e.y }

/-- TAD: AC takes the sum modulo 2^32, and L is complemented exactly when the sum is 2^32 or more; nothing
else changes beyond the address step (R147; that the overflow out of AC is the carry is the spec's decision
D5, R148). -/
def Obligations.TadAddsAndCarryFlipsLink : Prop :=
  ∀ (i p : Bool) (off : BitVec 11) (s : State),
    let e := s.effectiveAddress i p off
    let sum := s.ac.toNat + (e.readWord e.y).toNat
    encode (.tad i p off) = mriWord 0x00002000 i p off ∧
    ∃ t, exec (.tad i p off) s = .next t ∧ t.ac.toNat = sum % 2 ^ 32 ∧
      t.l = (if 2 ^ 32 ≤ sum then !s.l else s.l) ∧
      { t with ac := e.ac, l := e.l } = e

/-- DCA: M[Y] takes AC where Y exists, every other word reads as before, and AC becomes 0 (R149; that an address
exists exactly up to H is the spec's decision D16, log entry 24). -/
def Obligations.DcaDepositsAndClears : Prop :=
  ∀ (i p : Bool) (off : BitVec 11) (s : State), s.inv = true →
    let e := s.effectiveAddress i p off
    encode (.dca i p off) = mriWord 0x00004000 i p off ∧
    ∃ t, exec (.dca i p off) s = .next t ∧ t.ac = 0 ∧
      (e.y.toNat ≤ s.h.toNat → t.readWord e.y = s.ac) ∧
      (s.h.toNat < e.y.toNat → t.mem = e.mem) ∧
      (∀ a, a ≠ e.y → t.readWord a = e.readWord a) ∧
      { t with mem := e.mem, ac := e.ac } = e

/-- ISZ: M[Y] takes M[Y] + 1 and S becomes 1 where the word then reads 0; at a non-existent Y nothing is
stored and S becomes 1 (the word READ BACK is tested: the spec's decision D24; that an address
exists exactly up to H is D16, log entry 24). L, AC and PC do not change (R151). -/
def Obligations.IszIncrementsAndSkipsOnZero : Prop :=
  ∀ (i p : Bool) (off : BitVec 11) (s : State), s.inv = true →
    let e := s.effectiveAddress i p off
    encode (.isz i p off) = mriWord 0x00006000 i p off ∧
    ∃ t, exec (.isz i p off) s = .next t ∧
      (e.y.toNat ≤ s.h.toNat →
        t.readWord e.y = e.readWord e.y + 1 ∧
        t.skip = (if e.readWord e.y = 0xFFFFFFFF then true else s.skip)) ∧
      (s.h.toNat < e.y.toNat → t.skip = true ∧ t.mem = e.mem) ∧
      (∀ a, a ≠ e.y → t.readWord a = e.readWord a) ∧
      { t with mem := e.mem, skip := e.skip } = e

/-- JMS: M[Y] takes the advanced PC plus 1 where Y exists, PC takes Y + 1, and nothing else changes beyond the
address step (R152; the plus 1 of the link is the literal reading, the spec's decision D7 and log entry 9,
the unchecked sums are D30, and that an address exists exactly up to H is D16, log entry 24). -/
def Obligations.JmsLinksAndEnters : Prop :=
  ∀ (i p : Bool) (off : BitVec 11) (s : State), s.inv = true →
    let e := s.effectiveAddress i p off
    encode (.jms i p off) = mriWord 0x00008000 i p off ∧
    ∃ t, exec (.jms i p off) s = .next t ∧ t.pc = e.y + 1 ∧
      (e.y.toNat ≤ s.h.toNat → t.readWord e.y = s.pc + 1) ∧
      (s.h.toNat < e.y.toNat → t.mem = e.mem) ∧
      (∀ a, a ≠ e.y → t.readWord a = e.readWord a) ∧
      { t with mem := e.mem, pc := e.pc } = e

/-- JMP: PC takes the effective address, whatever it is (no check against H: the spec's decision D30); nothing
else changes beyond the address step (R153). -/
def Obligations.JmpGoesToTheAddress : Prop :=
  ∀ (i p : Bool) (off : BitVec 11) (s : State),
    let e := s.effectiveAddress i p off
    encode (.jmp i p off) = mriWord 0x0000A000 i p off ∧
    exec (.jmp i p off) s = .next { e with pc := e.y }

/-- The six memory-referencing instructions: none faults, none reads or writes MQ, SC, BASE or SBASE, only
TAD can change L, only ISZ can change S, only JMS and JMP change PC (R145). -/
def Obligations.MriFamilyTouchesOnlyItsRegisters : Prop :=
  ∀ (n : Instr) (s : State) (mq base sbase : Word) (sc : BitVec 7), isMri n = true →
    ∃ t, exec n s = .next t ∧
      exec n { s with mq := mq, sc := sc, base := base, sbase := sbase } =
        .next { t with mq := mq, sc := sc, base := base, sbase := sbase } ∧
      t.mq = s.mq ∧ t.sc = s.sc ∧ t.base = s.base ∧ t.sbase = s.sbase ∧
      ((∀ i p off, n ≠ .tad i p off) → t.l = s.l) ∧
      ((∀ i p off, n ≠ .isz i p off) → t.skip = s.skip) ∧
      (isJump n = false → t.pc = s.pc)

/-- A subroutine returns: after JMS to a word of page zero outside the auto-increment range, an indirect JMP
through that word goes to the second word after the JMS, from any state in which that word still holds the
link (R152, R155). The link value is the literal reading D7 (log entry 9), and
that page zero exists is the spec's decision D16 (log entry 24). -/
def Obligations.JmpThroughTheLinkReturns : Prop :=
  ∀ (s r : State) (off : BitVec 11), s.inv = true → r.inv = true → r.h = s.h →
    ¬ (0x200 ≤ off.toNat ∧ off.toNat ≤ 0x2FF) →
    ∃ t, exec (.jms false false off) s = .next t ∧
      (r.readWord (off.setWidth 32) = t.readWord (off.setWidth 32) →
        ∃ r', exec (.jmp true false off) r = .next r' ∧ r'.pc = s.pc + 1)

/-! ### IMM and input/output -/

/-- IMM: AC takes the 31-bit immediate, sign-extended, and IR[31] takes IR[30]; nothing else changes
(R126). -/
def Obligations.ImmLoadsTheSignedImmediate : Prop :=
  ∀ (v : BitVec 31) (s : State),
    (encode (.imm v)).toNat = 2 ^ 31 + v.toNat ∧
    ∃ t, exec (.imm v) s = .next t ∧ t.ac.toInt = v.toInt ∧
      t.ir.extractLsb' 0 31 = v ∧ t.ir.getLsbD 31 = v.getLsbD 30 ∧ t.ac = t.ir ∧
      { t with ac := s.ac, ir := s.ir } = s

/-- IOT: D and DOP take their fields, and where no device defines the pair nothing else happens (R160; that the
unassigned bit IR[12] is ignored is the spec's decision D19, and that the set of devices is empty unless
said otherwise is D17). -/
def Obligations.IotOfUnknownDeviceDoesNothing : Prop :=
  ∀ (x : Bool) (d : BitVec 8) (dop : BitVec 4) (s : State),
    (encode (.iot false d dop)).toNat = 0xC000 + d.toNat * 16 + dop.toNat ∧
    ((d, dop) ∉ s.devices → exec (.iot x d dop) s = .next { s with d := d, dop := dop })

/-- IOT of a pair a device defines is refused: no document says what the device does (R161). That the model
refuses it is its own choice (log entry 11). -/
def Obligations.IotOfDefinedDeviceIsRefused : Prop :=
  ∀ (x : Bool) (d : BitVec 8) (dop : BitVec 4) (s : State), (d, dop) ∈ s.devices →
    exec (.iot x d dop) s = .refused (.deviceUndescribed d dop)

/-! ### Operate group 1 -/

/-- The words that take no action: NOP, a group 1 or group 2 word with unassigned bits alone, EOP 0x0 and EOP
0xB, which set EOP and nothing else (R181, R229; that unassigned bits are ignored is the spec's decision
D19). -/
def Obligations.NoOperationsChangeNothing : Prop :=
  ∀ (s : State) (u1 : BitVec 4) (u2 : BitVec 5) (i : Bool) (u : BitVec 3),
    encode .nop = 0x0000E000 ∧ encode (.eop0 false 0) = 0x0000E801 ∧ encode (.eopB false 0) = 0x0000E8B1 ∧
    exec .nop s = .next s ∧ exec (.group1 {} u1) s = .next s ∧ exec (.group2 {} u2) s = .next s ∧
    exec (.eop0 i u) s = .next { s with eop := 0x0 } ∧ exec (.eopB i u) s = .next { s with eop := 0xB }

/-- CLA of each group clears AC, CLL clears L, CMA takes AC to (-AC) - 1, CML takes L to 1 - L; nothing else
changes but EOP in group 3 (R167 to R170, R191, R206). -/
def Obligations.ClearsAndComplements : Prop :=
  ∀ (s : State) (u1 : BitVec 4) (u2 : BitVec 5) (i : Bool) (u : BitVec 3),
    encode (.cla1 0) = 0x0000E200 ∧ encode (.cla2 0) = 0x0000EA00 ∧ encode (.cla3 false 0) = 0x0000EA01 ∧
    encode (.cll 0) = 0x0000E100 ∧ encode (.cma 0) = 0x0000E040 ∧ encode (.cml 0) = 0x0000E020 ∧
    exec (.cla1 u1) s = .next { s with ac := 0 } ∧ exec (.cla2 u2) s = .next { s with ac := 0 } ∧
    exec (.cla3 i u) s = .next { s with ac := 0, eop := 0 } ∧
    exec (.cll u1) s = .next { s with l := false } ∧
    exec (.cma u1) s = .next { s with ac := -s.ac - 1 } ∧
    exec (.cml u1) s = .next { s with l := !s.l }

/-- IAC: AC plus 1 modulo 2^32, L complemented exactly when AC was all ones (the spec's decision D5); nothing
else changes (R171). -/
def Obligations.IacIncrementsAndCarryFlipsLink : Prop :=
  ∀ (s : State) (u : BitVec 4), encode (.iac 0) = 0x0000E001 ∧
    exec (.iac u) s = .next { s with
      ac := BitVec.ofNat 32 ((s.ac.toNat + 1) % 2 ^ 32),
      l := if s.ac.toNat = 2 ^ 32 - 1 then !s.l else s.l }

/-- The rotates turn the 33-bit ring {L, AC} by one or two places, B holds the bit the last single rotate saved,
and nothing else changes (R173 to R177). That RAL takes AC[31] into L, and RTL with it, is the spec's decision
D8 (log entry 20), and that B keeps the bit after the step is the model's choice (log entry 8). -/
def Obligations.RotatesTurnTheRing : Prop :=
  ∀ (s : State) (u : BitVec 4),
    encode (.rar 0) = 0x0000E010 ∧ encode (.rtr 0) = 0x0000E012 ∧ encode (.ral 0) = 0x0000E004 ∧
    encode (.rtl 0) = 0x0000E006 ∧
    (∃ t, exec (.rar u) s = .next t ∧ t.ring = s.ring.rotateRight 1 ∧ t.b = s.ac.getLsbD 0 ∧
      { t with ac := s.ac, l := s.l, b := s.b } = s) ∧
    (∃ t, exec (.rtr u) s = .next t ∧ t.ring = s.ring.rotateRight 2 ∧ t.b = s.ac.getLsbD 1 ∧
      { t with ac := s.ac, l := s.l, b := s.b } = s) ∧
    (∃ t, exec (.ral u) s = .next t ∧ t.ring = s.ring.rotateLeft 1 ∧ t.b = s.l ∧
      { t with ac := s.ac, l := s.l, b := s.b } = s) ∧
    (∃ t, exec (.rtl u) s = .next t ∧ t.ring = s.ring.rotateLeft 2 ∧ t.b = s.ac.getLsbD 31 ∧
      { t with ac := s.ac, l := s.l, b := s.b } = s)

/-- RAR and RAL undo each other, RTR is two RARs, RTL is two RALs, and thirty-three RARs restore AC and L
(R173 to R177; RAL is the mirror image of RAR by the spec's decision D8). -/
def Obligations.RotatesUndoEachOther : Prop :=
  ∀ s : State,
    (∃ t, execAll [.rar 0, .ral 0] s = .next t ∧ t.ac = s.ac ∧ t.l = s.l) ∧
    (∃ t, execAll [.ral 0, .rar 0] s = .next t ∧ t.ac = s.ac ∧ t.l = s.l) ∧
    exec (.rtr 0) s = execAll [.rar 0, .rar 0] s ∧ exec (.rtl 0) s = execAll [.ral 0, .ral 0] s ∧
    (∃ t, execAll (List.replicate 33 (.rar 0)) s = .next t ∧ t.ac = s.ac ∧ t.l = s.l)

/-- HSW exchanges the halfwords of AC, BSW the 4-bit halves of each of its two low bytes, PCA loads AC with
the advanced PC; nothing else changes, and HSW and BSW undo themselves (R178, R179, R180; that BSW follows
its masks is the spec's decision D20). -/
def Obligations.SwapsAndPcToAc : Prop :=
  ∀ (s : State) (u : BitVec 4),
    encode (.hsw 0) = 0x0000E002 ∧ encode (.bsw 0) = 0x0000E014 ∧ encode (.pca 0) = 0x0000E016 ∧
    exec (.hsw u) s = .next { s with ac := s.ac.rotateLeft 16 } ∧
    exec (.bsw u) s = .next { s with ac := swappedNibbles s.ac } ∧
    exec (.pca u) s = .next { s with ac := s.pc } ∧
    execAll [.hsw u, .hsw u] s = .next s ∧ execAll [.bsw u, .bsw u] s = .next s

/-- A group 1 word takes all its actions in the fixed order: clears, complements, increment, then the one
rotate, swap or PCA; it is what its single-action instructions do one after another, and it touches nothing
but AC, L and B (R165). The spec's own decisions: the carry of IAC is what complements L (D5, log entry 18),
RAL, and RTL with it, is the mirror image of RAR (D8, log entry 20), and BSW follows its masks (D20, log entry
20). -/
def Obligations.Group1TakesAllActionsInOrder : Prop :=
  ∀ (f : Opr1) (u : BitVec 4) (s : State),
    let ac1 : Word := if f.cla then 0 else s.ac
    let l1 : Bool := if f.cll then false else s.l
    let ac2 : Word := if f.cma then ~~~ac1 else ac1
    let l2 : Bool := if f.cml then !l1 else l1
    let l3 : Bool := if f.iac = true ∧ ac2 = 0xFFFFFFFF then !l2 else l2
    let ac3 : Word := if f.iac then ac2 + 1 else ac2
    let ring3 : BitVec 33 := BitVec.ofBool l3 ++ ac3
    ∃ t, exec (.group1 f u) s = .next t ∧ execAll (group1Parts f) s = .next t ∧
      { t with ac := s.ac, l := s.l, b := s.b } = s ∧
      match f.rot with
      | .noRot => t.ac = ac3 ∧ t.l = l3
      | .rar => t.ring = ring3.rotateRight 1
      | .rtr => t.ring = ring3.rotateRight 2
      | .ral => t.ring = ring3.rotateLeft 1
      | .rtl => t.ring = ring3.rotateLeft 2
      | .hsw => t.ac = ac3.rotateLeft 16 ∧ t.l = l3
      | .pca => t.ac = s.pc ∧ t.l = l3
      | .bsw => t.ac = swappedNibbles ac3 ∧ t.l = l3

/-- CMA IAC negates AC, complementing L exactly where AC is 0, so taken twice it restores AC and L (R182, which
the spec derives; decision D5 of the spec). -/
def Obligations.CmaIacNegatesAc : Prop :=
  ∀ (s : State) (u : BitVec 4),
    exec (.group1 { cma := true, iac := true } u) s =
      .next { s with ac := -s.ac, l := if s.ac = 0 then !s.l else s.l } ∧
    execAll [.group1 { cma := true, iac := true } u, .group1 { cma := true, iac := true } u] s = .next s

/-! ### Operate group 2 -/

/-- SMA sets S where AC is negative, SZA where AC is 0, SNL where L is 1, and else S stays; nothing but S
changes (R192, R193, R194). -/
def Obligations.SmaSzaSnlSetTheSkip : Prop :=
  ∀ (s : State) (u : BitVec 5),
    exec (.sma u) s = .next { s with skip := decide (s.ac.toInt < 0) || s.skip } ∧
    exec (.sza u) s = .next { s with skip := decide (s.ac = 0) || s.skip } ∧
    exec (.snl u) s = .next { s with skip := s.l || s.skip } ∧
    encode (.sma 0) = 0x0000E900 ∧ encode (.sza 0) = 0x0000E840 ∧ encode (.snl 0) = 0x0000E820

/-- With S = 0 on entry, as the cycle has it: SPA skips where AC is not negative, SNA where AC is not 0, SZL
where L is 0, and SKP always; nothing but S changes (R195, R196, and R197, which the spec derives). -/
def Obligations.ReversedTestsSkipOnTheOpposite : Prop :=
  ∀ (s : State) (u : BitVec 5), s.skip = false →
    exec (.spa u) s = .next { s with skip := decide (0 ≤ s.ac.toInt) } ∧
    exec (.sna u) s = .next { s with skip := decide (s.ac ≠ 0) } ∧
    exec (.szl u) s = .next { s with skip := !s.l } ∧
    exec (.skp u) s = .next { s with skip := true } ∧
    encode (.spa 0) = 0x0000E910 ∧ encode (.sna 0) = 0x0000E850 ∧ encode (.szl 0) = 0x0000E830 ∧
    encode (.skp 0) = 0x0000E810

/-- A group 2 word clears AC first, then skips if ANY selected test holds, or with the reverse bit if NONE
holds, then halts where HLT is selected; nothing but AC, S and RUN changes (R190; the clear before the tests
is the spec's decision D21). -/
def Obligations.Group2SkipsIfAnyOrNoneHolds : Prop :=
  ∀ (f : Opr2) (u : BitVec 5) (s : State), s.skip = false →
    let holds : Prop :=
      (f.sma = true ∧ f.cla = false ∧ s.ac.toInt < 0) ∨
      (f.sza = true ∧ (f.cla = true ∨ s.ac = 0)) ∨ (f.snl = true ∧ s.l = true)
    let rest (t : State) : Prop :=
      t.ac = (if f.cla then 0 else s.ac) ∧ t.run = (if f.hlt then false else s.run) ∧
      { t with ac := s.ac, run := s.run, skip := s.skip } = s
    (∃ t, exec (.group2 f u) s = .next t ∧ (t.skip = true ↔ holds) ∧ rest t) ∧
    (∃ t, exec (.reverse f u) s = .next t ∧ (t.skip = true ↔ ¬ holds) ∧ rest t)

/-! ### Operate group 3: AC and MQ -/

/-- MQA ORs MQ into AC, MQL copies AC to MQ and keeps AC, SWP exchanges them and undoes itself; EOP becomes 0
and nothing else changes (R207, R208, R209; that SWP only exchanges is the spec's decision D9). -/
def Obligations.AcAndMqMoves : Prop :=
  ∀ (s : State) (i : Bool) (u : BitVec 3),
    encode (.mqa false 0) = 0x0000EC01 ∧ encode (.mql false 0) = 0x0000E901 ∧
    encode (.swp false 0) = 0x0000ED01 ∧
    exec (.mqa i u) s = .next { s with ac := s.ac ||| s.mq, eop := 0 } ∧
    exec (.mql i u) s = .next { s with mq := s.ac, eop := 0 } ∧
    exec (.swp i u) s = .next { s with ac := s.mq, mq := s.ac, eop := 0 } ∧
    execAll [.swp i u, .swp i u] s = .next { s with eop := 0 }

/-- A group 3 word is its AC/MQ part and then its EOP operation, each as its single-action instruction takes
it (R205); it goes on whatever the state unless the operation is NMI; it changes PC only through an operand
fetch, memory only through DST, S only through DPSZ (R212, which the spec derives; one instruction by the
spec's decision D29). -/
def Obligations.Group3TakesItsPartsInOrder : Prop :=
  ∀ (f : Opr3) (i : Bool) (u : BitVec 3) (s : State),
    exec (.group3 f i u) s = execAll (group3Parts f i u) s ∧
    (f.eop ≠ .nmi → completes (exec (.group3 f i u) s)) ∧
    ∀ t, exec (.group3 f i u) s = .next t →
      (f.eop ≠ .muy → f.eop ≠ .dvi → f.eop ≠ .dad → f.eop ≠ .dst → t.pc = s.pc) ∧
      (f.eop ≠ .dst → t.mem = s.mem) ∧ (f.eop ≠ .dpsz → t.skip = s.skip) ∧
      t.eop = f.eop.code ∧ t.run = s.run

/-! ### The EOP operations -/

/-- ASC loads SC with AC modulo 128 and clears AC (R219; that SC keeps the 7 low bits is the spec's decision
D6). -/
def Obligations.AscLoadsTheShiftCount : Prop :=
  ∀ (s : State) (i : Bool) (u : BitVec 3), encode (.asc false 0) = 0x0000E811 ∧
    ∃ t, exec (.asc i u) s = .next t ∧ t.sc.toNat = s.ac.toNat % 128 ∧
      { t with sc := s.sc } = { s with ac := 0, eop := 0x1 }

/-- SCA ORs SC, zero-extended, into AC and keeps SC; with CLA in the same word it loads AC with SC (R228). -/
def Obligations.ScaOrsTheShiftCount : Prop :=
  ∀ (s : State) (i : Bool) (u : BitVec 3), encode (.sca false 0) = 0x0000E881 ∧
    exec (.sca i u) s = .next { s with ac := s.ac ||| BitVec.ofNat 32 s.sc.toNat, eop := 0x8 } ∧
    encode (.group3 { cla := true, eop := .sca } false 0) = 0x0000EA81 ∧
    exec (.group3 { cla := true, eop := .sca } i u) s =
      .next { s with ac := BitVec.ofNat 32 s.sc.toNat, eop := 0x8 }

/-- MUY: AC:MQ takes AC plus the product of the operand and MQ as a 64-bit number, L and SC become 0, and PC
passes the operand word (R220, R218; that AC is added is the spec's decision D10, the wrap of PC at H is D15,
and the indirect step without auto-increment is D27). -/
def Obligations.MuyMultipliesAndAddsAc : Prop :=
  ∀ (s : State) (i : Bool) (u : BitVec 3),
    let y := s.operandWord i
    encode (.muy false 0) = 0x0000E821 ∧ encode (.muy true 0) = 0x0000F821 ∧
    ∃ t, exec (.muy i u) s = .next t ∧ t.double = s.ac.toNat + y.toNat * s.mq.toNat ∧
      { t with ac := s.ac, mq := s.mq } =
        { s with l := false, sc := 0, y := y, pc := nextAddress s.h s.pc, eop := 0x2 }

/-- DVI where AC is below the divisor: MQ takes the quotient and AC the remainder of AC:MQ, L and SC become 0
(R221, R218; decisions D11, D15 and D27 of the spec). -/
def Obligations.DviDividesTheDoubleWord : Prop :=
  ∀ (s : State) (i : Bool) (u : BitVec 3),
    let y := s.operandWord i
    encode (.dvi false 0) = 0x0000E831 ∧ encode (.dvi true 0) = 0x0000F831 ∧
    (s.ac.toNat < y.toNat →
      ∃ t, exec (.dvi i u) s = .next t ∧ t.mq.toNat * y.toNat + t.ac.toNat = s.double ∧
        t.ac.toNat < y.toNat ∧
        { t with ac := s.ac, mq := s.mq } =
          { s with l := false, sc := 0, y := y, pc := nextAddress s.h s.pc, eop := 0x3 })

/-- DVI in divide overflow, which is a divisor of 0 or a quotient of more than 32 bits: L becomes 1, SC
becomes 0, PC passes the operand word, and of AC and MQ nothing is said: they are free values (R222 and the
spec's decision D11; log entry 2). The operand fetch is R218: the wrap of PC at H is the spec's decision D15,
and the indirect step without auto-increment is D27 (log entry 23). -/
def Obligations.DviOverflowSetsLink : Prop :=
  ∀ (s : State) (i : Bool) (u : BitVec 3),
    let y := s.operandWord i
    (y = 0 ∨ 2 ^ 32 ≤ s.double / y.toNat) →
      ∃ t, exec (.dvi i u) s = .next t ∧
        { t with ac := s.ac, mq := s.mq } =
          { s with l := true, sc := 0, y := y, pc := nextAddress s.h s.pc, eop := 0x3 }

/-- NMI of a double word that is not zero: it is shifted left n places, n at most 62 and no more than needed,
until its top two bits differ or it is 0xC0000000:00000000; SC counts the shifts and L holds the bit the
last shift moved out (R223; the test before each shift is the spec's decision D12). -/
def Obligations.NmiNormalises : Prop :=
  ∀ (s : State) (i : Bool) (u : BitVec 3),
    let shifted (n : Nat) : Nat := s.double * 2 ^ n % 2 ^ 64
    let stops (x : Nat) : Prop := 2 ^ 62 ≤ x ∧ x ≤ 3 * 2 ^ 62
    encode (.nmi false 0) = 0x0000E841 ∧
    (s.ac ≠ 0 ∨ s.mq ≠ 0 →
      ∃ n ≤ 62, ∃ t, exec (.nmi i u) s = .next t ∧ t.sc.toNat = n ∧ t.double = shifted n ∧
        stops (shifted n) ∧ (∀ k < n, ¬ stops (shifted k)) ∧
        (n = 0 → t.l = s.l) ∧ (0 < n → t.l = decide (2 ^ 63 ≤ shifted (n - 1))) ∧
        { t with ac := s.ac, mq := s.mq, l := s.l, sc := s.sc } = { s with eop := 0x4 })

/-- NMI with AC = MQ = 0 has no next state: its loop never ends (R223, R266, the spec's decision D12; log entry
14). -/
def Obligations.NmiOfZeroIsStuck : Prop :=
  ∀ (s : State) (i : Bool) (u : BitVec 3), s.ac = 0 → s.mq = 0 → exec (.nmi i u) s = .fault .nmiNeverEnds

/-- SHL: the 65-bit register L:AC:MQ is multiplied by 2^SC modulo 2^65, and SC becomes 0 (R224). -/
def Obligations.ShlMultipliesTheTriple : Prop :=
  ∀ (s : State) (i : Bool) (u : BitVec 3), encode (.shl false 0) = 0x0000E851 ∧
    ∃ t, exec (.shl i u) s = .next t ∧ t.triple = s.triple * 2 ^ s.sc.toNat % 2 ^ 65 ∧
      { t with ac := s.ac, mq := s.mq, l := s.l } = { s with sc := 0, eop := 0x5 }

/-- LSR: AC:MQ is divided by 2^SC as an unsigned number; L becomes 0 unless SC is 0, and SC becomes 0
(R225). -/
def Obligations.LsrDividesTheDouble : Prop :=
  ∀ (s : State) (i : Bool) (u : BitVec 3), encode (.lsr false 0) = 0x0000E861 ∧
    ∃ t, exec (.lsr i u) s = .next t ∧ t.double = s.double / 2 ^ s.sc.toNat ∧
      t.l = (if s.sc = 0 then s.l else false) ∧
      { t with ac := s.ac, mq := s.mq, l := s.l } = { s with sc := 0, eop := 0x6 }

/-- ASR: AC:MQ is divided by 2^SC as a two's complement number, rounding down; L becomes the sign unless SC
is 0, and SC becomes 0 (R226; that the sign enters is the spec's decision D13). -/
def Obligations.AsrDividesTheSignedDouble : Prop :=
  ∀ (s : State) (i : Bool) (u : BitVec 3), encode (.asr false 0) = 0x0000E871 ∧
    ∃ t, exec (.asr i u) s = .next t ∧ t.doubleInt = s.doubleInt / 2 ^ s.sc.toNat ∧
      t.l = (if s.sc = 0 then s.l else s.ac.getLsbD 31) ∧
      { t with ac := s.ac, mq := s.mq, l := s.l } = { s with sc := 0, eop := 0x7 }

/-- DAD: AC:MQ takes its sum with the double word at the operand address, high word first, and L is set to
the carry (R230, R73; the operand fetch R218 with decisions D15 and D27 of the spec). -/
def Obligations.DadAddsTheDoubleWord : Prop :=
  ∀ (s : State) (i : Bool) (u : BitVec 3),
    let y := s.operandWord i
    encode (.dad false 0) = 0x0000E891 ∧ encode (.dad true 0) = 0x0000F891 ∧
    ∃ t, exec (.dad i u) s = .next t ∧
      t.triple = s.double + ((s.readWord y).toNat * 2 ^ 32 + (s.readWord (y + 1)).toNat) ∧
      { t with ac := s.ac, mq := s.mq, l := s.l } =
        { s with y := y, pc := nextAddress s.h s.pc, eop := 0x9 }

/-- DST: AC goes to the word at the operand address and MQ to the one after it, where they exist; every other
word reads as before, and AC and MQ are kept (R231; that DST takes an operand word is the spec's decision
D14, with D15 and D27 for the operand fetch, and that an address exists exactly up to H is D16). -/
def Obligations.DstStoresTheDoubleWord : Prop :=
  ∀ (s : State) (i : Bool) (u : BitVec 3), s.mem.wf = true →
    let y := s.operandWord i
    encode (.dst false 0) = 0x0000E8A1 ∧ encode (.dst true 0) = 0x0000F8A1 ∧
    ∃ t, exec (.dst i u) s = .next t ∧
      (y.toNat ≤ s.h.toNat → t.readWord y = s.ac) ∧
      ((y + 1).toNat ≤ s.h.toNat → t.readWord (y + 1) = s.mq) ∧
      (∀ a, (a ≠ y ∧ a ≠ y + 1) ∨ s.h.toNat < a.toNat → t.readWord a = s.readWord a) ∧
      { t with mem := s.mem } = { s with y := y, pc := nextAddress s.h s.pc, eop := 0xA }

/-- DPIC adds 1 to AC:MQ and sets L to the carry; DPSZ sets S to whether AC:MQ is 0 (R232, R233). -/
def Obligations.DpicAndDpszOnTheDoubleWord : Prop :=
  ∀ (s : State) (i : Bool) (u : BitVec 3),
    encode (.dpic false 0) = 0x0000E8C1 ∧ encode (.dpsz false 0) = 0x0000E8D1 ∧
    (∃ t, exec (.dpic i u) s = .next t ∧ t.triple = s.double + 1 ∧
      { t with ac := s.ac, mq := s.mq, l := s.l } = { s with eop := 0xC }) ∧
    exec (.dpsz i u) s = .next { s with skip := decide (s.double = 0), eop := 0xD }

/-- DCM complements AC:MQ, L kept; DCM and then DPIC negate the double word (R234). -/
def Obligations.DcmComplementsAndWithDpicNegates : Prop :=
  ∀ (s : State) (i : Bool) (u : BitVec 3), encode (.dcm false 0) = 0x0000E8E1 ∧
    (∃ t, exec (.dcm i u) s = .next t ∧ t.double = 2 ^ 64 - 1 - s.double ∧
      { t with ac := s.ac, mq := s.mq } = { s with eop := 0xE }) ∧
    (∃ t, execAll [.dcm i u, .dpic i u] s = .next t ∧ t.double = (2 ^ 64 - s.double) % 2 ^ 64)

/-- SAM: AC takes MQ - AC, MQ is kept, and L is set to the borrow (R235; the borrow is that of the unsigned
subtraction by the spec's decision D22). -/
def Obligations.SamSubtractsAcFromMq : Prop :=
  ∀ (s : State) (i : Bool) (u : BitVec 3), encode (.sam false 0) = 0x0000E8F1 ∧
    ∃ t, exec (.sam i u) s = .next t ∧
      t.l.toNat * 2 ^ 32 + s.mq.toNat = s.ac.toNat + t.ac.toNat ∧
      t.l = decide (s.mq.toNat < s.ac.toNat) ∧
      { t with ac := s.ac, l := s.l } = { s with eop := 0xF }
end

