-- ==== Sys2Proof/Laws/Memory.lean ====
section
/-! SUPPORT. The memory as a list of words: what a read finds after a write, and that a write keeps the
canonical form. -/

namespace Sys2Proof.Machine

@[simp] theorem Memory.lookup_nil (a : Nat) : Memory.lookup [] a = Config.unlistedWord := rfl

theorem Memory.lookup_cons (k : Nat) (v : Word) (m : Memory) (a : Nat) :
    Memory.lookup ((k, v) :: m) a = if k = a then v else Memory.lookup m a := rfl

/-- An address below every listed one is unlisted. -/
theorem Memory.lookup_below (m : Memory) (a : Nat) (h : ∀ c ∈ m, a < c.1) :
    Memory.lookup m a = Config.unlistedWord := by
  induction m with
  | nil => rfl
  | cons c m ih =>
    have hc : a < c.1 := h c (by simp)
    rw [show c = (c.1, c.2) from rfl, Memory.lookup_cons, if_neg (by omega)]
    exact ih fun d hd => h d (by simp [hd])

theorem Memory.wf_cons (k : Nat) (v : Word) (m : Memory) :
    Memory.wf ((k, v) :: m) = true ↔
      v ≠ Config.unlistedWord ∧ (∀ c ∈ m, k < c.1) ∧ Memory.wf m = true := by
  simp [Memory.wf, and_assoc]

/-- Every address listed after a store was listed before or is the address stored to. -/
theorem Memory.mem_store (m : Memory) (a : Nat) (v : Word) (c : Cell) (h : c ∈ Memory.store m a v) :
    c ∈ m ∨ c = (a, v) := by
  induction m with
  | nil => by_cases hv : v = Config.unlistedWord <;> simp_all [Memory.store]
  | cons d m ih =>
    obtain ⟨k, x⟩ := d
    simp only [Memory.store] at h
    split at h
    · split at h
      · exact .inl h
      · rcases List.mem_cons.mp h with h | h
        · exact .inr h
        · exact .inl h
    · split at h
      · split at h
        · exact .inl (List.mem_cons_of_mem _ h)
        · rcases List.mem_cons.mp h with h | h
          · exact .inr h
          · exact .inl (List.mem_cons_of_mem _ h)
      · rcases List.mem_cons.mp h with h | h
        · exact .inl (by simp [h])
        · rcases ih h with h | h
          · exact .inl (by simp [h])
          · exact .inr h

/-- A store keeps the canonical form. -/
theorem Memory.wf_store (m : Memory) (a : Nat) (v : Word) (h : m.wf = true) : (m.store a v).wf = true := by
  induction m with
  | nil =>
    by_cases hv : v = Config.unlistedWord
    · simp [Memory.store, hv, Memory.wf]
    · simp [Memory.store, hv, Memory.wf]
  | cons d m ih =>
    obtain ⟨k, x⟩ := d
    obtain ⟨hx, hk, hm⟩ := (Memory.wf_cons k x m).mp h
    simp only [Memory.store]
    split
    · split
      · exact h
      · refine (Memory.wf_cons _ _ _).mpr ⟨‹_›, ?_, h⟩
        intro c hc
        rcases List.mem_cons.mp hc with rfl | hc
        · assumption
        · have := hk c hc; omega
    · split
      · subst a
        split
        · exact hm
        · exact (Memory.wf_cons _ _ _).mpr ⟨‹_›, hk, hm⟩
      · refine (Memory.wf_cons _ _ _).mpr ⟨hx, ?_, ih hm⟩
        intro c hc
        rcases Memory.mem_store m a v c hc with hc | rfl
        · exact hk c hc
        · show k < a
          omega

/-- What a lookup finds after a store, in a memory in canonical form. -/
theorem Memory.lookup_store (m : Memory) (a : Nat) (v : Word) (a' : Nat) (h : m.wf = true) :
    (m.store a v).lookup a' = if a' = a then v else m.lookup a' := by
  induction m with
  | nil =>
    by_cases hv : v = Config.unlistedWord <;> by_cases ha : a' = a <;>
      simp [Memory.store, Memory.lookup, hv, ha, eq_comm]
    intro h1; exact absurd h1.symm ha
  | cons d m ih =>
    obtain ⟨k, x⟩ := d
    obtain ⟨_, hk, hm⟩ := (Memory.wf_cons k x m).mp h
    have below : ∀ b, b ≤ k → Memory.lookup m b = Config.unlistedWord := fun b hb =>
      Memory.lookup_below m b fun c hc => by have := hk c hc; omega
    simp only [Memory.store]
    split
    · rename_i hlt
      split
      · rename_i hv
        by_cases ha : a' = a
        · rw [if_pos ha, Memory.lookup_cons, if_neg (by omega), below a' (by omega), hv]
        · rw [if_neg ha]
      · by_cases ha : a' = a
        · simp [Memory.lookup_cons, ha]
        · rw [if_neg ha, Memory.lookup_cons, if_neg (by omega)]
    · split
      · rename_i hnlt heq
        split
        · rename_i hv
          by_cases ha : a' = a
          · rw [if_pos ha, below a' (by omega), hv]
          · rw [if_neg ha, Memory.lookup_cons, if_neg (by omega)]
        · by_cases ha : a' = a
          · simp [Memory.lookup_cons, ha]
          · rw [if_neg ha, Memory.lookup_cons, Memory.lookup_cons, if_neg (by omega), if_neg (by omega)]
      · rw [Memory.lookup_cons, Memory.lookup_cons, ih hm]
        by_cases ha : a' = a
        · rw [if_pos ha, if_neg (by omega), if_pos ha]
        · rw [if_neg ha, if_neg ha]

/-- The memory right after reset is in canonical form. -/
theorem reset_mem_wf : State.reset.mem.wf = true := rfl

end Sys2Proof.Machine
end

