-- ==== Sys2Proof/Laws/State.lean ====
section
/-! SUPPORT. What every register reads after each setter: one lemma per field per setter, true by rfl. -/

namespace Sys2Proof.Machine

variable (s : State)

/-! ### setAc -/

@[simp] theorem State.setAc_ac (v : Word) : (s.setAc v).ac = v := rfl
@[simp] theorem State.setAc_mq (v : Word) : (s.setAc v).mq = s.mq := rfl
@[simp] theorem State.setAc_l (v : Word) : (s.setAc v).l = s.l := rfl
@[simp] theorem State.setAc_pc (v : Word) : (s.setAc v).pc = s.pc := rfl
@[simp] theorem State.setAc_base (v : Word) : (s.setAc v).base = s.base := rfl
@[simp] theorem State.setAc_sbase (v : Word) : (s.setAc v).sbase = s.sbase := rfl
@[simp] theorem State.setAc_ir (v : Word) : (s.setAc v).ir = s.ir := rfl
@[simp] theorem State.setAc_op (v : Word) : (s.setAc v).op = s.op := rfl
@[simp] theorem State.setAc_skip (v : Word) : (s.setAc v).skip = s.skip := rfl
@[simp] theorem State.setAc_y (v : Word) : (s.setAc v).y = s.y := rfl
@[simp] theorem State.setAc_d (v : Word) : (s.setAc v).d = s.d := rfl
@[simp] theorem State.setAc_dop (v : Word) : (s.setAc v).dop = s.dop := rfl
@[simp] theorem State.setAc_sc (v : Word) : (s.setAc v).sc = s.sc := rfl
@[simp] theorem State.setAc_h (v : Word) : (s.setAc v).h = s.h := rfl
@[simp] theorem State.setAc_b (v : Word) : (s.setAc v).b = s.b := rfl
@[simp] theorem State.setAc_eop (v : Word) : (s.setAc v).eop = s.eop := rfl
@[simp] theorem State.setAc_run (v : Word) : (s.setAc v).run = s.run := rfl
@[simp] theorem State.setAc_devices (v : Word) : (s.setAc v).devices = s.devices := rfl
@[simp] theorem State.setAc_mem (v : Word) : (s.setAc v).mem = s.mem := rfl

/-! ### setMq -/

@[simp] theorem State.setMq_ac (v : Word) : (s.setMq v).ac = s.ac := rfl
@[simp] theorem State.setMq_mq (v : Word) : (s.setMq v).mq = v := rfl
@[simp] theorem State.setMq_l (v : Word) : (s.setMq v).l = s.l := rfl
@[simp] theorem State.setMq_pc (v : Word) : (s.setMq v).pc = s.pc := rfl
@[simp] theorem State.setMq_base (v : Word) : (s.setMq v).base = s.base := rfl
@[simp] theorem State.setMq_sbase (v : Word) : (s.setMq v).sbase = s.sbase := rfl
@[simp] theorem State.setMq_ir (v : Word) : (s.setMq v).ir = s.ir := rfl
@[simp] theorem State.setMq_op (v : Word) : (s.setMq v).op = s.op := rfl
@[simp] theorem State.setMq_skip (v : Word) : (s.setMq v).skip = s.skip := rfl
@[simp] theorem State.setMq_y (v : Word) : (s.setMq v).y = s.y := rfl
@[simp] theorem State.setMq_d (v : Word) : (s.setMq v).d = s.d := rfl
@[simp] theorem State.setMq_dop (v : Word) : (s.setMq v).dop = s.dop := rfl
@[simp] theorem State.setMq_sc (v : Word) : (s.setMq v).sc = s.sc := rfl
@[simp] theorem State.setMq_h (v : Word) : (s.setMq v).h = s.h := rfl
@[simp] theorem State.setMq_b (v : Word) : (s.setMq v).b = s.b := rfl
@[simp] theorem State.setMq_eop (v : Word) : (s.setMq v).eop = s.eop := rfl
@[simp] theorem State.setMq_run (v : Word) : (s.setMq v).run = s.run := rfl
@[simp] theorem State.setMq_devices (v : Word) : (s.setMq v).devices = s.devices := rfl
@[simp] theorem State.setMq_mem (v : Word) : (s.setMq v).mem = s.mem := rfl

/-! ### setL -/

@[simp] theorem State.setL_ac (v : Bool) : (s.setL v).ac = s.ac := rfl
@[simp] theorem State.setL_mq (v : Bool) : (s.setL v).mq = s.mq := rfl
@[simp] theorem State.setL_l (v : Bool) : (s.setL v).l = v := rfl
@[simp] theorem State.setL_pc (v : Bool) : (s.setL v).pc = s.pc := rfl
@[simp] theorem State.setL_base (v : Bool) : (s.setL v).base = s.base := rfl
@[simp] theorem State.setL_sbase (v : Bool) : (s.setL v).sbase = s.sbase := rfl
@[simp] theorem State.setL_ir (v : Bool) : (s.setL v).ir = s.ir := rfl
@[simp] theorem State.setL_op (v : Bool) : (s.setL v).op = s.op := rfl
@[simp] theorem State.setL_skip (v : Bool) : (s.setL v).skip = s.skip := rfl
@[simp] theorem State.setL_y (v : Bool) : (s.setL v).y = s.y := rfl
@[simp] theorem State.setL_d (v : Bool) : (s.setL v).d = s.d := rfl
@[simp] theorem State.setL_dop (v : Bool) : (s.setL v).dop = s.dop := rfl
@[simp] theorem State.setL_sc (v : Bool) : (s.setL v).sc = s.sc := rfl
@[simp] theorem State.setL_h (v : Bool) : (s.setL v).h = s.h := rfl
@[simp] theorem State.setL_b (v : Bool) : (s.setL v).b = s.b := rfl
@[simp] theorem State.setL_eop (v : Bool) : (s.setL v).eop = s.eop := rfl
@[simp] theorem State.setL_run (v : Bool) : (s.setL v).run = s.run := rfl
@[simp] theorem State.setL_devices (v : Bool) : (s.setL v).devices = s.devices := rfl
@[simp] theorem State.setL_mem (v : Bool) : (s.setL v).mem = s.mem := rfl

/-! ### setPc -/

@[simp] theorem State.setPc_ac (v : Word) : (s.setPc v).ac = s.ac := rfl
@[simp] theorem State.setPc_mq (v : Word) : (s.setPc v).mq = s.mq := rfl
@[simp] theorem State.setPc_l (v : Word) : (s.setPc v).l = s.l := rfl
@[simp] theorem State.setPc_pc (v : Word) : (s.setPc v).pc = v := rfl
@[simp] theorem State.setPc_base (v : Word) : (s.setPc v).base = s.base := rfl
@[simp] theorem State.setPc_sbase (v : Word) : (s.setPc v).sbase = s.sbase := rfl
@[simp] theorem State.setPc_ir (v : Word) : (s.setPc v).ir = s.ir := rfl
@[simp] theorem State.setPc_op (v : Word) : (s.setPc v).op = s.op := rfl
@[simp] theorem State.setPc_skip (v : Word) : (s.setPc v).skip = s.skip := rfl
@[simp] theorem State.setPc_y (v : Word) : (s.setPc v).y = s.y := rfl
@[simp] theorem State.setPc_d (v : Word) : (s.setPc v).d = s.d := rfl
@[simp] theorem State.setPc_dop (v : Word) : (s.setPc v).dop = s.dop := rfl
@[simp] theorem State.setPc_sc (v : Word) : (s.setPc v).sc = s.sc := rfl
@[simp] theorem State.setPc_h (v : Word) : (s.setPc v).h = s.h := rfl
@[simp] theorem State.setPc_b (v : Word) : (s.setPc v).b = s.b := rfl
@[simp] theorem State.setPc_eop (v : Word) : (s.setPc v).eop = s.eop := rfl
@[simp] theorem State.setPc_run (v : Word) : (s.setPc v).run = s.run := rfl
@[simp] theorem State.setPc_devices (v : Word) : (s.setPc v).devices = s.devices := rfl
@[simp] theorem State.setPc_mem (v : Word) : (s.setPc v).mem = s.mem := rfl

/-! ### setIr -/

@[simp] theorem State.setIr_ac (v : Word) : (s.setIr v).ac = s.ac := rfl
@[simp] theorem State.setIr_mq (v : Word) : (s.setIr v).mq = s.mq := rfl
@[simp] theorem State.setIr_l (v : Word) : (s.setIr v).l = s.l := rfl
@[simp] theorem State.setIr_pc (v : Word) : (s.setIr v).pc = s.pc := rfl
@[simp] theorem State.setIr_base (v : Word) : (s.setIr v).base = s.base := rfl
@[simp] theorem State.setIr_sbase (v : Word) : (s.setIr v).sbase = s.sbase := rfl
@[simp] theorem State.setIr_ir (v : Word) : (s.setIr v).ir = v := rfl
@[simp] theorem State.setIr_op (v : Word) : (s.setIr v).op = s.op := rfl
@[simp] theorem State.setIr_skip (v : Word) : (s.setIr v).skip = s.skip := rfl
@[simp] theorem State.setIr_y (v : Word) : (s.setIr v).y = s.y := rfl
@[simp] theorem State.setIr_d (v : Word) : (s.setIr v).d = s.d := rfl
@[simp] theorem State.setIr_dop (v : Word) : (s.setIr v).dop = s.dop := rfl
@[simp] theorem State.setIr_sc (v : Word) : (s.setIr v).sc = s.sc := rfl
@[simp] theorem State.setIr_h (v : Word) : (s.setIr v).h = s.h := rfl
@[simp] theorem State.setIr_b (v : Word) : (s.setIr v).b = s.b := rfl
@[simp] theorem State.setIr_eop (v : Word) : (s.setIr v).eop = s.eop := rfl
@[simp] theorem State.setIr_run (v : Word) : (s.setIr v).run = s.run := rfl
@[simp] theorem State.setIr_devices (v : Word) : (s.setIr v).devices = s.devices := rfl
@[simp] theorem State.setIr_mem (v : Word) : (s.setIr v).mem = s.mem := rfl

/-! ### setOp -/

@[simp] theorem State.setOp_ac (v : BitVec 3) : (s.setOp v).ac = s.ac := rfl
@[simp] theorem State.setOp_mq (v : BitVec 3) : (s.setOp v).mq = s.mq := rfl
@[simp] theorem State.setOp_l (v : BitVec 3) : (s.setOp v).l = s.l := rfl
@[simp] theorem State.setOp_pc (v : BitVec 3) : (s.setOp v).pc = s.pc := rfl
@[simp] theorem State.setOp_base (v : BitVec 3) : (s.setOp v).base = s.base := rfl
@[simp] theorem State.setOp_sbase (v : BitVec 3) : (s.setOp v).sbase = s.sbase := rfl
@[simp] theorem State.setOp_ir (v : BitVec 3) : (s.setOp v).ir = s.ir := rfl
@[simp] theorem State.setOp_op (v : BitVec 3) : (s.setOp v).op = v := rfl
@[simp] theorem State.setOp_skip (v : BitVec 3) : (s.setOp v).skip = s.skip := rfl
@[simp] theorem State.setOp_y (v : BitVec 3) : (s.setOp v).y = s.y := rfl
@[simp] theorem State.setOp_d (v : BitVec 3) : (s.setOp v).d = s.d := rfl
@[simp] theorem State.setOp_dop (v : BitVec 3) : (s.setOp v).dop = s.dop := rfl
@[simp] theorem State.setOp_sc (v : BitVec 3) : (s.setOp v).sc = s.sc := rfl
@[simp] theorem State.setOp_h (v : BitVec 3) : (s.setOp v).h = s.h := rfl
@[simp] theorem State.setOp_b (v : BitVec 3) : (s.setOp v).b = s.b := rfl
@[simp] theorem State.setOp_eop (v : BitVec 3) : (s.setOp v).eop = s.eop := rfl
@[simp] theorem State.setOp_run (v : BitVec 3) : (s.setOp v).run = s.run := rfl
@[simp] theorem State.setOp_devices (v : BitVec 3) : (s.setOp v).devices = s.devices := rfl
@[simp] theorem State.setOp_mem (v : BitVec 3) : (s.setOp v).mem = s.mem := rfl

/-! ### setSkip -/

@[simp] theorem State.setSkip_ac (v : Bool) : (s.setSkip v).ac = s.ac := rfl
@[simp] theorem State.setSkip_mq (v : Bool) : (s.setSkip v).mq = s.mq := rfl
@[simp] theorem State.setSkip_l (v : Bool) : (s.setSkip v).l = s.l := rfl
@[simp] theorem State.setSkip_pc (v : Bool) : (s.setSkip v).pc = s.pc := rfl
@[simp] theorem State.setSkip_base (v : Bool) : (s.setSkip v).base = s.base := rfl
@[simp] theorem State.setSkip_sbase (v : Bool) : (s.setSkip v).sbase = s.sbase := rfl
@[simp] theorem State.setSkip_ir (v : Bool) : (s.setSkip v).ir = s.ir := rfl
@[simp] theorem State.setSkip_op (v : Bool) : (s.setSkip v).op = s.op := rfl
@[simp] theorem State.setSkip_skip (v : Bool) : (s.setSkip v).skip = v := rfl
@[simp] theorem State.setSkip_y (v : Bool) : (s.setSkip v).y = s.y := rfl
@[simp] theorem State.setSkip_d (v : Bool) : (s.setSkip v).d = s.d := rfl
@[simp] theorem State.setSkip_dop (v : Bool) : (s.setSkip v).dop = s.dop := rfl
@[simp] theorem State.setSkip_sc (v : Bool) : (s.setSkip v).sc = s.sc := rfl
@[simp] theorem State.setSkip_h (v : Bool) : (s.setSkip v).h = s.h := rfl
@[simp] theorem State.setSkip_b (v : Bool) : (s.setSkip v).b = s.b := rfl
@[simp] theorem State.setSkip_eop (v : Bool) : (s.setSkip v).eop = s.eop := rfl
@[simp] theorem State.setSkip_run (v : Bool) : (s.setSkip v).run = s.run := rfl
@[simp] theorem State.setSkip_devices (v : Bool) : (s.setSkip v).devices = s.devices := rfl
@[simp] theorem State.setSkip_mem (v : Bool) : (s.setSkip v).mem = s.mem := rfl

/-! ### setY -/

@[simp] theorem State.setY_ac (v : Word) : (s.setY v).ac = s.ac := rfl
@[simp] theorem State.setY_mq (v : Word) : (s.setY v).mq = s.mq := rfl
@[simp] theorem State.setY_l (v : Word) : (s.setY v).l = s.l := rfl
@[simp] theorem State.setY_pc (v : Word) : (s.setY v).pc = s.pc := rfl
@[simp] theorem State.setY_base (v : Word) : (s.setY v).base = s.base := rfl
@[simp] theorem State.setY_sbase (v : Word) : (s.setY v).sbase = s.sbase := rfl
@[simp] theorem State.setY_ir (v : Word) : (s.setY v).ir = s.ir := rfl
@[simp] theorem State.setY_op (v : Word) : (s.setY v).op = s.op := rfl
@[simp] theorem State.setY_skip (v : Word) : (s.setY v).skip = s.skip := rfl
@[simp] theorem State.setY_y (v : Word) : (s.setY v).y = v := rfl
@[simp] theorem State.setY_d (v : Word) : (s.setY v).d = s.d := rfl
@[simp] theorem State.setY_dop (v : Word) : (s.setY v).dop = s.dop := rfl
@[simp] theorem State.setY_sc (v : Word) : (s.setY v).sc = s.sc := rfl
@[simp] theorem State.setY_h (v : Word) : (s.setY v).h = s.h := rfl
@[simp] theorem State.setY_b (v : Word) : (s.setY v).b = s.b := rfl
@[simp] theorem State.setY_eop (v : Word) : (s.setY v).eop = s.eop := rfl
@[simp] theorem State.setY_run (v : Word) : (s.setY v).run = s.run := rfl
@[simp] theorem State.setY_devices (v : Word) : (s.setY v).devices = s.devices := rfl
@[simp] theorem State.setY_mem (v : Word) : (s.setY v).mem = s.mem := rfl

/-! ### setD -/

@[simp] theorem State.setD_ac (v : BitVec 8) : (s.setD v).ac = s.ac := rfl
@[simp] theorem State.setD_mq (v : BitVec 8) : (s.setD v).mq = s.mq := rfl
@[simp] theorem State.setD_l (v : BitVec 8) : (s.setD v).l = s.l := rfl
@[simp] theorem State.setD_pc (v : BitVec 8) : (s.setD v).pc = s.pc := rfl
@[simp] theorem State.setD_base (v : BitVec 8) : (s.setD v).base = s.base := rfl
@[simp] theorem State.setD_sbase (v : BitVec 8) : (s.setD v).sbase = s.sbase := rfl
@[simp] theorem State.setD_ir (v : BitVec 8) : (s.setD v).ir = s.ir := rfl
@[simp] theorem State.setD_op (v : BitVec 8) : (s.setD v).op = s.op := rfl
@[simp] theorem State.setD_skip (v : BitVec 8) : (s.setD v).skip = s.skip := rfl
@[simp] theorem State.setD_y (v : BitVec 8) : (s.setD v).y = s.y := rfl
@[simp] theorem State.setD_d (v : BitVec 8) : (s.setD v).d = v := rfl
@[simp] theorem State.setD_dop (v : BitVec 8) : (s.setD v).dop = s.dop := rfl
@[simp] theorem State.setD_sc (v : BitVec 8) : (s.setD v).sc = s.sc := rfl
@[simp] theorem State.setD_h (v : BitVec 8) : (s.setD v).h = s.h := rfl
@[simp] theorem State.setD_b (v : BitVec 8) : (s.setD v).b = s.b := rfl
@[simp] theorem State.setD_eop (v : BitVec 8) : (s.setD v).eop = s.eop := rfl
@[simp] theorem State.setD_run (v : BitVec 8) : (s.setD v).run = s.run := rfl
@[simp] theorem State.setD_devices (v : BitVec 8) : (s.setD v).devices = s.devices := rfl
@[simp] theorem State.setD_mem (v : BitVec 8) : (s.setD v).mem = s.mem := rfl

/-! ### setDop -/

@[simp] theorem State.setDop_ac (v : BitVec 4) : (s.setDop v).ac = s.ac := rfl
@[simp] theorem State.setDop_mq (v : BitVec 4) : (s.setDop v).mq = s.mq := rfl
@[simp] theorem State.setDop_l (v : BitVec 4) : (s.setDop v).l = s.l := rfl
@[simp] theorem State.setDop_pc (v : BitVec 4) : (s.setDop v).pc = s.pc := rfl
@[simp] theorem State.setDop_base (v : BitVec 4) : (s.setDop v).base = s.base := rfl
@[simp] theorem State.setDop_sbase (v : BitVec 4) : (s.setDop v).sbase = s.sbase := rfl
@[simp] theorem State.setDop_ir (v : BitVec 4) : (s.setDop v).ir = s.ir := rfl
@[simp] theorem State.setDop_op (v : BitVec 4) : (s.setDop v).op = s.op := rfl
@[simp] theorem State.setDop_skip (v : BitVec 4) : (s.setDop v).skip = s.skip := rfl
@[simp] theorem State.setDop_y (v : BitVec 4) : (s.setDop v).y = s.y := rfl
@[simp] theorem State.setDop_d (v : BitVec 4) : (s.setDop v).d = s.d := rfl
@[simp] theorem State.setDop_dop (v : BitVec 4) : (s.setDop v).dop = v := rfl
@[simp] theorem State.setDop_sc (v : BitVec 4) : (s.setDop v).sc = s.sc := rfl
@[simp] theorem State.setDop_h (v : BitVec 4) : (s.setDop v).h = s.h := rfl
@[simp] theorem State.setDop_b (v : BitVec 4) : (s.setDop v).b = s.b := rfl
@[simp] theorem State.setDop_eop (v : BitVec 4) : (s.setDop v).eop = s.eop := rfl
@[simp] theorem State.setDop_run (v : BitVec 4) : (s.setDop v).run = s.run := rfl
@[simp] theorem State.setDop_devices (v : BitVec 4) : (s.setDop v).devices = s.devices := rfl
@[simp] theorem State.setDop_mem (v : BitVec 4) : (s.setDop v).mem = s.mem := rfl

/-! ### setSc -/

@[simp] theorem State.setSc_ac (v : BitVec 7) : (s.setSc v).ac = s.ac := rfl
@[simp] theorem State.setSc_mq (v : BitVec 7) : (s.setSc v).mq = s.mq := rfl
@[simp] theorem State.setSc_l (v : BitVec 7) : (s.setSc v).l = s.l := rfl
@[simp] theorem State.setSc_pc (v : BitVec 7) : (s.setSc v).pc = s.pc := rfl
@[simp] theorem State.setSc_base (v : BitVec 7) : (s.setSc v).base = s.base := rfl
@[simp] theorem State.setSc_sbase (v : BitVec 7) : (s.setSc v).sbase = s.sbase := rfl
@[simp] theorem State.setSc_ir (v : BitVec 7) : (s.setSc v).ir = s.ir := rfl
@[simp] theorem State.setSc_op (v : BitVec 7) : (s.setSc v).op = s.op := rfl
@[simp] theorem State.setSc_skip (v : BitVec 7) : (s.setSc v).skip = s.skip := rfl
@[simp] theorem State.setSc_y (v : BitVec 7) : (s.setSc v).y = s.y := rfl
@[simp] theorem State.setSc_d (v : BitVec 7) : (s.setSc v).d = s.d := rfl
@[simp] theorem State.setSc_dop (v : BitVec 7) : (s.setSc v).dop = s.dop := rfl
@[simp] theorem State.setSc_sc (v : BitVec 7) : (s.setSc v).sc = v := rfl
@[simp] theorem State.setSc_h (v : BitVec 7) : (s.setSc v).h = s.h := rfl
@[simp] theorem State.setSc_b (v : BitVec 7) : (s.setSc v).b = s.b := rfl
@[simp] theorem State.setSc_eop (v : BitVec 7) : (s.setSc v).eop = s.eop := rfl
@[simp] theorem State.setSc_run (v : BitVec 7) : (s.setSc v).run = s.run := rfl
@[simp] theorem State.setSc_devices (v : BitVec 7) : (s.setSc v).devices = s.devices := rfl
@[simp] theorem State.setSc_mem (v : BitVec 7) : (s.setSc v).mem = s.mem := rfl

/-! ### setB -/

@[simp] theorem State.setB_ac (v : Bool) : (s.setB v).ac = s.ac := rfl
@[simp] theorem State.setB_mq (v : Bool) : (s.setB v).mq = s.mq := rfl
@[simp] theorem State.setB_l (v : Bool) : (s.setB v).l = s.l := rfl
@[simp] theorem State.setB_pc (v : Bool) : (s.setB v).pc = s.pc := rfl
@[simp] theorem State.setB_base (v : Bool) : (s.setB v).base = s.base := rfl
@[simp] theorem State.setB_sbase (v : Bool) : (s.setB v).sbase = s.sbase := rfl
@[simp] theorem State.setB_ir (v : Bool) : (s.setB v).ir = s.ir := rfl
@[simp] theorem State.setB_op (v : Bool) : (s.setB v).op = s.op := rfl
@[simp] theorem State.setB_skip (v : Bool) : (s.setB v).skip = s.skip := rfl
@[simp] theorem State.setB_y (v : Bool) : (s.setB v).y = s.y := rfl
@[simp] theorem State.setB_d (v : Bool) : (s.setB v).d = s.d := rfl
@[simp] theorem State.setB_dop (v : Bool) : (s.setB v).dop = s.dop := rfl
@[simp] theorem State.setB_sc (v : Bool) : (s.setB v).sc = s.sc := rfl
@[simp] theorem State.setB_h (v : Bool) : (s.setB v).h = s.h := rfl
@[simp] theorem State.setB_b (v : Bool) : (s.setB v).b = v := rfl
@[simp] theorem State.setB_eop (v : Bool) : (s.setB v).eop = s.eop := rfl
@[simp] theorem State.setB_run (v : Bool) : (s.setB v).run = s.run := rfl
@[simp] theorem State.setB_devices (v : Bool) : (s.setB v).devices = s.devices := rfl
@[simp] theorem State.setB_mem (v : Bool) : (s.setB v).mem = s.mem := rfl

/-! ### setEop -/

@[simp] theorem State.setEop_ac (v : BitVec 4) : (s.setEop v).ac = s.ac := rfl
@[simp] theorem State.setEop_mq (v : BitVec 4) : (s.setEop v).mq = s.mq := rfl
@[simp] theorem State.setEop_l (v : BitVec 4) : (s.setEop v).l = s.l := rfl
@[simp] theorem State.setEop_pc (v : BitVec 4) : (s.setEop v).pc = s.pc := rfl
@[simp] theorem State.setEop_base (v : BitVec 4) : (s.setEop v).base = s.base := rfl
@[simp] theorem State.setEop_sbase (v : BitVec 4) : (s.setEop v).sbase = s.sbase := rfl
@[simp] theorem State.setEop_ir (v : BitVec 4) : (s.setEop v).ir = s.ir := rfl
@[simp] theorem State.setEop_op (v : BitVec 4) : (s.setEop v).op = s.op := rfl
@[simp] theorem State.setEop_skip (v : BitVec 4) : (s.setEop v).skip = s.skip := rfl
@[simp] theorem State.setEop_y (v : BitVec 4) : (s.setEop v).y = s.y := rfl
@[simp] theorem State.setEop_d (v : BitVec 4) : (s.setEop v).d = s.d := rfl
@[simp] theorem State.setEop_dop (v : BitVec 4) : (s.setEop v).dop = s.dop := rfl
@[simp] theorem State.setEop_sc (v : BitVec 4) : (s.setEop v).sc = s.sc := rfl
@[simp] theorem State.setEop_h (v : BitVec 4) : (s.setEop v).h = s.h := rfl
@[simp] theorem State.setEop_b (v : BitVec 4) : (s.setEop v).b = s.b := rfl
@[simp] theorem State.setEop_eop (v : BitVec 4) : (s.setEop v).eop = v := rfl
@[simp] theorem State.setEop_run (v : BitVec 4) : (s.setEop v).run = s.run := rfl
@[simp] theorem State.setEop_devices (v : BitVec 4) : (s.setEop v).devices = s.devices := rfl
@[simp] theorem State.setEop_mem (v : BitVec 4) : (s.setEop v).mem = s.mem := rfl

/-! ### setRun -/

@[simp] theorem State.setRun_ac (v : Bool) : (s.setRun v).ac = s.ac := rfl
@[simp] theorem State.setRun_mq (v : Bool) : (s.setRun v).mq = s.mq := rfl
@[simp] theorem State.setRun_l (v : Bool) : (s.setRun v).l = s.l := rfl
@[simp] theorem State.setRun_pc (v : Bool) : (s.setRun v).pc = s.pc := rfl
@[simp] theorem State.setRun_base (v : Bool) : (s.setRun v).base = s.base := rfl
@[simp] theorem State.setRun_sbase (v : Bool) : (s.setRun v).sbase = s.sbase := rfl
@[simp] theorem State.setRun_ir (v : Bool) : (s.setRun v).ir = s.ir := rfl
@[simp] theorem State.setRun_op (v : Bool) : (s.setRun v).op = s.op := rfl
@[simp] theorem State.setRun_skip (v : Bool) : (s.setRun v).skip = s.skip := rfl
@[simp] theorem State.setRun_y (v : Bool) : (s.setRun v).y = s.y := rfl
@[simp] theorem State.setRun_d (v : Bool) : (s.setRun v).d = s.d := rfl
@[simp] theorem State.setRun_dop (v : Bool) : (s.setRun v).dop = s.dop := rfl
@[simp] theorem State.setRun_sc (v : Bool) : (s.setRun v).sc = s.sc := rfl
@[simp] theorem State.setRun_h (v : Bool) : (s.setRun v).h = s.h := rfl
@[simp] theorem State.setRun_b (v : Bool) : (s.setRun v).b = s.b := rfl
@[simp] theorem State.setRun_eop (v : Bool) : (s.setRun v).eop = s.eop := rfl
@[simp] theorem State.setRun_run (v : Bool) : (s.setRun v).run = v := rfl
@[simp] theorem State.setRun_devices (v : Bool) : (s.setRun v).devices = s.devices := rfl
@[simp] theorem State.setRun_mem (v : Bool) : (s.setRun v).mem = s.mem := rfl

/-! ### setMem -/

@[simp] theorem State.setMem_ac (v : Memory) : (s.setMem v).ac = s.ac := rfl
@[simp] theorem State.setMem_mq (v : Memory) : (s.setMem v).mq = s.mq := rfl
@[simp] theorem State.setMem_l (v : Memory) : (s.setMem v).l = s.l := rfl
@[simp] theorem State.setMem_pc (v : Memory) : (s.setMem v).pc = s.pc := rfl
@[simp] theorem State.setMem_base (v : Memory) : (s.setMem v).base = s.base := rfl
@[simp] theorem State.setMem_sbase (v : Memory) : (s.setMem v).sbase = s.sbase := rfl
@[simp] theorem State.setMem_ir (v : Memory) : (s.setMem v).ir = s.ir := rfl
@[simp] theorem State.setMem_op (v : Memory) : (s.setMem v).op = s.op := rfl
@[simp] theorem State.setMem_skip (v : Memory) : (s.setMem v).skip = s.skip := rfl
@[simp] theorem State.setMem_y (v : Memory) : (s.setMem v).y = s.y := rfl
@[simp] theorem State.setMem_d (v : Memory) : (s.setMem v).d = s.d := rfl
@[simp] theorem State.setMem_dop (v : Memory) : (s.setMem v).dop = s.dop := rfl
@[simp] theorem State.setMem_sc (v : Memory) : (s.setMem v).sc = s.sc := rfl
@[simp] theorem State.setMem_h (v : Memory) : (s.setMem v).h = s.h := rfl
@[simp] theorem State.setMem_b (v : Memory) : (s.setMem v).b = s.b := rfl
@[simp] theorem State.setMem_eop (v : Memory) : (s.setMem v).eop = s.eop := rfl
@[simp] theorem State.setMem_run (v : Memory) : (s.setMem v).run = s.run := rfl
@[simp] theorem State.setMem_devices (v : Memory) : (s.setMem v).devices = s.devices := rfl
@[simp] theorem State.setMem_mem (v : Memory) : (s.setMem v).mem = v := rfl

end Sys2Proof.Machine
end

