-- ==== Sys2Proof/Laws/Ops.lean ====
section
/-! SUPPORT. One lemma per shared operation that says once everything the operation can do, so that no later
proof unfolds it. -/

namespace Sys2Proof.Machine

variable (s : State)

/-! ### Reading memory through the setters -/

@[simp] theorem State.setAc_existsAt (v : Word) (a : Word) : (s.setAc v).existsAt a = s.existsAt a := rfl
@[simp] theorem State.setAc_readWord (v : Word) (a : Word) : (s.setAc v).readWord a = s.readWord a := rfl
@[simp] theorem State.setMq_existsAt (v : Word) (a : Word) : (s.setMq v).existsAt a = s.existsAt a := rfl
@[simp] theorem State.setMq_readWord (v : Word) (a : Word) : (s.setMq v).readWord a = s.readWord a := rfl
@[simp] theorem State.setL_existsAt (v : Bool) (a : Word) : (s.setL v).existsAt a = s.existsAt a := rfl
@[simp] theorem State.setL_readWord (v : Bool) (a : Word) : (s.setL v).readWord a = s.readWord a := rfl
@[simp] theorem State.setPc_existsAt (v : Word) (a : Word) : (s.setPc v).existsAt a = s.existsAt a := rfl
@[simp] theorem State.setPc_readWord (v : Word) (a : Word) : (s.setPc v).readWord a = s.readWord a := rfl
@[simp] theorem State.setIr_existsAt (v : Word) (a : Word) : (s.setIr v).existsAt a = s.existsAt a := rfl
@[simp] theorem State.setIr_readWord (v : Word) (a : Word) : (s.setIr v).readWord a = s.readWord a := rfl
@[simp] theorem State.setOp_existsAt (v : BitVec 3) (a : Word) : (s.setOp v).existsAt a = s.existsAt a := rfl
@[simp] theorem State.setOp_readWord (v : BitVec 3) (a : Word) : (s.setOp v).readWord a = s.readWord a := rfl
@[simp] theorem State.setSkip_existsAt (v : Bool) (a : Word) : (s.setSkip v).existsAt a = s.existsAt a := rfl
@[simp] theorem State.setSkip_readWord (v : Bool) (a : Word) : (s.setSkip v).readWord a = s.readWord a := rfl
@[simp] theorem State.setY_existsAt (v : Word) (a : Word) : (s.setY v).existsAt a = s.existsAt a := rfl
@[simp] theorem State.setY_readWord (v : Word) (a : Word) : (s.setY v).readWord a = s.readWord a := rfl
@[simp] theorem State.setD_existsAt (v : BitVec 8) (a : Word) : (s.setD v).existsAt a = s.existsAt a := rfl
@[simp] theorem State.setD_readWord (v : BitVec 8) (a : Word) : (s.setD v).readWord a = s.readWord a := rfl
@[simp] theorem State.setDop_existsAt (v : BitVec 4) (a : Word) : (s.setDop v).existsAt a = s.existsAt a := rfl
@[simp] theorem State.setDop_readWord (v : BitVec 4) (a : Word) : (s.setDop v).readWord a = s.readWord a := rfl
@[simp] theorem State.setSc_existsAt (v : BitVec 7) (a : Word) : (s.setSc v).existsAt a = s.existsAt a := rfl
@[simp] theorem State.setSc_readWord (v : BitVec 7) (a : Word) : (s.setSc v).readWord a = s.readWord a := rfl
@[simp] theorem State.setB_existsAt (v : Bool) (a : Word) : (s.setB v).existsAt a = s.existsAt a := rfl
@[simp] theorem State.setB_readWord (v : Bool) (a : Word) : (s.setB v).readWord a = s.readWord a := rfl
@[simp] theorem State.setEop_existsAt (v : BitVec 4) (a : Word) : (s.setEop v).existsAt a = s.existsAt a := rfl
@[simp] theorem State.setEop_readWord (v : BitVec 4) (a : Word) : (s.setEop v).readWord a = s.readWord a := rfl
@[simp] theorem State.setRun_existsAt (v : Bool) (a : Word) : (s.setRun v).existsAt a = s.existsAt a := rfl
@[simp] theorem State.setRun_readWord (v : Bool) (a : Word) : (s.setRun v).readWord a = s.readWord a := rfl
@[simp] theorem State.setMem_existsAt (v : Memory) (a : Word) : (s.setMem v).existsAt a = s.existsAt a := rfl

/-! ### Writing memory -/

/-- A write is a store into an existing word, and nothing where the word does not exist. -/
theorem State.writeWord_eq (a v : Word) :
    s.writeWord a v = s.setMem (if s.existsAt a then s.mem.store a.toNat v else s.mem) := by
  unfold State.writeWord
  split <;> rfl

@[simp] theorem State.writeWord_ac (a v : Word) : (s.writeWord a v).ac = s.ac := by
  simp [State.writeWord_eq]
@[simp] theorem State.writeWord_mq (a v : Word) : (s.writeWord a v).mq = s.mq := by
  simp [State.writeWord_eq]
@[simp] theorem State.writeWord_l (a v : Word) : (s.writeWord a v).l = s.l := by
  simp [State.writeWord_eq]
@[simp] theorem State.writeWord_pc (a v : Word) : (s.writeWord a v).pc = s.pc := by
  simp [State.writeWord_eq]
@[simp] theorem State.writeWord_base (a v : Word) : (s.writeWord a v).base = s.base := by
  simp [State.writeWord_eq]
@[simp] theorem State.writeWord_sbase (a v : Word) : (s.writeWord a v).sbase = s.sbase := by
  simp [State.writeWord_eq]
@[simp] theorem State.writeWord_ir (a v : Word) : (s.writeWord a v).ir = s.ir := by
  simp [State.writeWord_eq]
@[simp] theorem State.writeWord_op (a v : Word) : (s.writeWord a v).op = s.op := by
  simp [State.writeWord_eq]
@[simp] theorem State.writeWord_skip (a v : Word) : (s.writeWord a v).skip = s.skip := by
  simp [State.writeWord_eq]
@[simp] theorem State.writeWord_y (a v : Word) : (s.writeWord a v).y = s.y := by
  simp [State.writeWord_eq]
@[simp] theorem State.writeWord_d (a v : Word) : (s.writeWord a v).d = s.d := by
  simp [State.writeWord_eq]
@[simp] theorem State.writeWord_dop (a v : Word) : (s.writeWord a v).dop = s.dop := by
  simp [State.writeWord_eq]
@[simp] theorem State.writeWord_sc (a v : Word) : (s.writeWord a v).sc = s.sc := by
  simp [State.writeWord_eq]
@[simp] theorem State.writeWord_h (a v : Word) : (s.writeWord a v).h = s.h := by
  simp [State.writeWord_eq]
@[simp] theorem State.writeWord_b (a v : Word) : (s.writeWord a v).b = s.b := by
  simp [State.writeWord_eq]
@[simp] theorem State.writeWord_eop (a v : Word) : (s.writeWord a v).eop = s.eop := by
  simp [State.writeWord_eq]
@[simp] theorem State.writeWord_run (a v : Word) : (s.writeWord a v).run = s.run := by
  simp [State.writeWord_eq]
@[simp] theorem State.writeWord_devices (a v : Word) : (s.writeWord a v).devices = s.devices := by
  simp [State.writeWord_eq]
@[simp] theorem State.writeWord_existsAt (a v a' : Word) : (s.writeWord a v).existsAt a' = s.existsAt a' := by
  simp [State.existsAt]

/-- A write keeps the canonical form of the memory. -/
theorem State.writeWord_wf (a v : Word) (h : s.mem.wf = true) : (s.writeWord a v).mem.wf = true := by
  rw [State.writeWord_eq, State.setMem_mem]
  split
  · exact Memory.wf_store _ _ _ h
  · exact h

/-- A write lists no word that does not exist. -/
theorem State.writeWord_listsOnlyExisting (a v : Word) (h : s.listsOnlyExisting = true) :
    (s.writeWord a v).listsOnlyExisting = true := by
  simp only [State.listsOnlyExisting, List.all_eq_true, decide_eq_true_eq, State.writeWord_h] at h ⊢
  rw [State.writeWord_eq, State.setMem_mem]
  intro c hc
  split at hc
  · rename_i ha
    rcases Memory.mem_store _ _ _ _ hc with hc | rfl
    · exact h c hc
    · simpa [State.existsAt] using ha
  · exact h c hc

/-! ### The program counter and the fetch -/

/-- The advanced PC never lies beyond H. -/
theorem nextAddress_le (h pc : Word) : (nextAddress h pc).toNat ≤ h.toNat := by
  unfold nextAddress
  split
  · simp
  · omega

@[simp] theorem State.advancePc_eq : s.advancePc = s.setPc (nextAddress s.h s.pc) := rfl

/-- The fetch writes IR, Y, OP and PC and nothing else. -/
theorem State.fetch_eq :
    s.fetch = { s with
      ir := s.readWord s.pc, y := s.pc, op := opField (s.readWord s.pc), pc := nextAddress s.h s.pc } := rfl

/-! ### Operands -/

/-- What the effective-address computation can do: set Y alone (direct, or indirect through a pointer
outside the auto-increment range), or also increment the pointer word in memory. -/
theorem State.effectiveAddress_cases (i p : Bool) (off : BitVec 11) :
    (i = false ∧ s.effectiveAddress i p off = s.setY (initialY p off s.y)) ∨
    (i = true ∧ inAutoIncrement (initialY p off s.y) = false ∧
      s.effectiveAddress i p off = s.setY (s.readWord (initialY p off s.y))) ∨
    (i = true ∧ inAutoIncrement (initialY p off s.y) = true ∧
      s.effectiveAddress i p off =
        (s.writeWord (initialY p off s.y) (s.readWord (initialY p off s.y) + 1)).setY
          ((s.writeWord (initialY p off s.y) (s.readWord (initialY p off s.y) + 1)).readWord
            (initialY p off s.y))) := by
  cases i with
  | false => exact .inl ⟨rfl, rfl⟩
  | true =>
    cases hr : inAutoIncrement (initialY p off s.y) with
    | false =>
      refine .inr (.inl ⟨rfl, rfl, ?_⟩)
      simp [State.effectiveAddress, State.whenBit, State.indirectY, State.autoIncrement, hr]
      rfl
    | true =>
      refine .inr (.inr ⟨rfl, rfl, ?_⟩)
      simp [State.effectiveAddress, State.whenBit, State.indirectY, State.autoIncrement, hr]
      simp only [State.writeWord_eq]
      rfl

/-! What the effective-address computation leaves alone: every register but Y. -/

@[simp] theorem State.effectiveAddress_ac (i p : Bool) (off : BitVec 11) :
    (s.effectiveAddress i p off).ac = s.ac := by
  rcases s.effectiveAddress_cases i p off with ⟨_, h⟩ | ⟨_, _, h⟩ | ⟨_, _, h⟩ <;> simp [h]
@[simp] theorem State.effectiveAddress_mq (i p : Bool) (off : BitVec 11) :
    (s.effectiveAddress i p off).mq = s.mq := by
  rcases s.effectiveAddress_cases i p off with ⟨_, h⟩ | ⟨_, _, h⟩ | ⟨_, _, h⟩ <;> simp [h]
@[simp] theorem State.effectiveAddress_l (i p : Bool) (off : BitVec 11) :
    (s.effectiveAddress i p off).l = s.l := by
  rcases s.effectiveAddress_cases i p off with ⟨_, h⟩ | ⟨_, _, h⟩ | ⟨_, _, h⟩ <;> simp [h]
@[simp] theorem State.effectiveAddress_pc (i p : Bool) (off : BitVec 11) :
    (s.effectiveAddress i p off).pc = s.pc := by
  rcases s.effectiveAddress_cases i p off with ⟨_, h⟩ | ⟨_, _, h⟩ | ⟨_, _, h⟩ <;> simp [h]
@[simp] theorem State.effectiveAddress_base (i p : Bool) (off : BitVec 11) :
    (s.effectiveAddress i p off).base = s.base := by
  rcases s.effectiveAddress_cases i p off with ⟨_, h⟩ | ⟨_, _, h⟩ | ⟨_, _, h⟩ <;> simp [h]
@[simp] theorem State.effectiveAddress_sbase (i p : Bool) (off : BitVec 11) :
    (s.effectiveAddress i p off).sbase = s.sbase := by
  rcases s.effectiveAddress_cases i p off with ⟨_, h⟩ | ⟨_, _, h⟩ | ⟨_, _, h⟩ <;> simp [h]
@[simp] theorem State.effectiveAddress_ir (i p : Bool) (off : BitVec 11) :
    (s.effectiveAddress i p off).ir = s.ir := by
  rcases s.effectiveAddress_cases i p off with ⟨_, h⟩ | ⟨_, _, h⟩ | ⟨_, _, h⟩ <;> simp [h]
@[simp] theorem State.effectiveAddress_op (i p : Bool) (off : BitVec 11) :
    (s.effectiveAddress i p off).op = s.op := by
  rcases s.effectiveAddress_cases i p off with ⟨_, h⟩ | ⟨_, _, h⟩ | ⟨_, _, h⟩ <;> simp [h]
@[simp] theorem State.effectiveAddress_skip (i p : Bool) (off : BitVec 11) :
    (s.effectiveAddress i p off).skip = s.skip := by
  rcases s.effectiveAddress_cases i p off with ⟨_, h⟩ | ⟨_, _, h⟩ | ⟨_, _, h⟩ <;> simp [h]
@[simp] theorem State.effectiveAddress_d (i p : Bool) (off : BitVec 11) :
    (s.effectiveAddress i p off).d = s.d := by
  rcases s.effectiveAddress_cases i p off with ⟨_, h⟩ | ⟨_, _, h⟩ | ⟨_, _, h⟩ <;> simp [h]
@[simp] theorem State.effectiveAddress_dop (i p : Bool) (off : BitVec 11) :
    (s.effectiveAddress i p off).dop = s.dop := by
  rcases s.effectiveAddress_cases i p off with ⟨_, h⟩ | ⟨_, _, h⟩ | ⟨_, _, h⟩ <;> simp [h]
@[simp] theorem State.effectiveAddress_sc (i p : Bool) (off : BitVec 11) :
    (s.effectiveAddress i p off).sc = s.sc := by
  rcases s.effectiveAddress_cases i p off with ⟨_, h⟩ | ⟨_, _, h⟩ | ⟨_, _, h⟩ <;> simp [h]
@[simp] theorem State.effectiveAddress_h (i p : Bool) (off : BitVec 11) :
    (s.effectiveAddress i p off).h = s.h := by
  rcases s.effectiveAddress_cases i p off with ⟨_, h⟩ | ⟨_, _, h⟩ | ⟨_, _, h⟩ <;> simp [h]
@[simp] theorem State.effectiveAddress_b (i p : Bool) (off : BitVec 11) :
    (s.effectiveAddress i p off).b = s.b := by
  rcases s.effectiveAddress_cases i p off with ⟨_, h⟩ | ⟨_, _, h⟩ | ⟨_, _, h⟩ <;> simp [h]
@[simp] theorem State.effectiveAddress_eop (i p : Bool) (off : BitVec 11) :
    (s.effectiveAddress i p off).eop = s.eop := by
  rcases s.effectiveAddress_cases i p off with ⟨_, h⟩ | ⟨_, _, h⟩ | ⟨_, _, h⟩ <;> simp [h]
@[simp] theorem State.effectiveAddress_run (i p : Bool) (off : BitVec 11) :
    (s.effectiveAddress i p off).run = s.run := by
  rcases s.effectiveAddress_cases i p off with ⟨_, h⟩ | ⟨_, _, h⟩ | ⟨_, _, h⟩ <;> simp [h]
@[simp] theorem State.effectiveAddress_devices (i p : Bool) (off : BitVec 11) :
    (s.effectiveAddress i p off).devices = s.devices := by
  rcases s.effectiveAddress_cases i p off with ⟨_, h⟩ | ⟨_, _, h⟩ | ⟨_, _, h⟩ <;> simp [h]

/-- The effective-address computation keeps the canonical form of the memory. -/
theorem State.effectiveAddress_wf (i p : Bool) (off : BitVec 11) (hw : s.mem.wf = true) :
    (s.effectiveAddress i p off).mem.wf = true := by
  rcases s.effectiveAddress_cases i p off with ⟨_, h⟩ | ⟨_, _, h⟩ | ⟨_, _, h⟩
  · simpa [h] using hw
  · simpa [h] using hw
  · simpa [h] using s.writeWord_wf _ _ hw

/-- The effective-address computation lists no word that does not exist. -/
theorem State.effectiveAddress_listsOnlyExisting (i p : Bool) (off : BitVec 11)
    (hl : s.listsOnlyExisting = true) : (s.effectiveAddress i p off).listsOnlyExisting = true := by
  rcases s.effectiveAddress_cases i p off with ⟨_, h⟩ | ⟨_, _, h⟩ | ⟨_, _, h⟩
  · rw [h]; exact hl
  · rw [h]; exact hl
  · rw [h]
    exact s.writeWord_listsOnlyExisting _ _ hl

/-- The operand fetch sets Y to the operand and advances PC over the operand word. -/
theorem State.operandFetch_eq (i : Bool) :
    s.operandFetch i = { s with y := s.operandWord i, pc := nextAddress s.h s.pc } := by
  cases i <;> rfl

/-! ### Repeated actions -/

@[simp] theorem State.repeatN_zero (f : State → State) : State.repeatN 0 f s = s := rfl

@[simp] theorem State.repeatN_succ (n : Nat) (f : State → State) :
    State.repeatN (n + 1) f s = State.repeatN n f (f s) := rfl

/-- The last of several repetitions can be split off. -/
theorem State.repeatN_succ_last (n : Nat) (f : State → State) :
    State.repeatN (n + 1) f s = f (State.repeatN n f s) := by
  induction n generalizing s with
  | zero => rfl
  | succ n ih => rw [State.repeatN_succ, ih, State.repeatN_succ]

/-! ### The normalising loop -/

/-- Where the loop stops, it stops at the FIRST state that meets the stopping condition. -/
theorem State.normaliseLoop_some (n : Nat) (t : State) (h : State.normaliseLoop n s = some t) :
    ∃ k ≤ n, t = State.repeatN k State.normaliseStep s ∧ t.normalised = true ∧
      ∀ j < k, (State.repeatN j State.normaliseStep s).normalised = false := by
  induction n generalizing s with
  | zero =>
    simp only [State.normaliseLoop] at h
    split at h
    · cases h
      exact ⟨0, by omega, rfl, ‹_›, by omega⟩
    · cases h
  | succ n ih =>
    simp only [State.normaliseLoop] at h
    split at h
    · cases h
      exact ⟨0, by omega, rfl, ‹_›, by omega⟩
    · rename_i hn
      obtain ⟨k, hk, ht, hs, hj⟩ := ih s.normaliseStep h
      refine ⟨k + 1, by omega, by simpa using ht, hs, fun j hlt => ?_⟩
      cases j with
      | zero => simpa using hn
      | succ j => simpa using hj j (by omega)

/-- Where the loop does not stop, no state it passed met the stopping condition. -/
theorem State.normaliseLoop_none (n : Nat) (h : State.normaliseLoop n s = none) :
    ∀ j ≤ n, (State.repeatN j State.normaliseStep s).normalised = false := by
  induction n generalizing s with
  | zero =>
    simp only [State.normaliseLoop] at h
    split at h
    · cases h
    · rename_i hn
      intro j hj
      obtain rfl : j = 0 := by omega
      simpa using hn
  | succ n ih =>
    simp only [State.normaliseLoop] at h
    split at h
    · cases h
    · rename_i hn
      intro j hj
      cases j with
      | zero => simpa using hn
      | succ j => simpa using ih s.normaliseStep h j (by omega)

/-! ### The cycle -/

/-- Everything a step that goes on can be: idle while halted, a skipped word, or an executed instruction. -/
theorem step_cases (t : State) (h : step s = .next t) :
    (s.run = false ∧ t = s) ∨
    (s.run = true ∧ s.skip = true ∧ t = s.fetch.skipFetched) ∨
    (s.run = true ∧ s.skip = false ∧ ∃ i, decode (s.readWord s.pc) = .ok i ∧ exec i s.fetch = .next t) := by
  unfold step State.cycle at h
  split at h
  · rename_i hr
    dsimp only at h
    split at h
    · rename_i hs
      cases h
      exact .inr (.inl ⟨hr, hs, rfl⟩)
    · rename_i hs
      refine .inr (.inr ⟨hr, by simpa using (show ¬ s.skip = true from hs), ?_⟩)
      unfold State.executeIr at h
      split at h
      · rename_i i hd
        exact ⟨i, hd, h⟩
      · cases h
  · rename_i hr
    cases h
    exact .inl ⟨by simpa using hr, rfl⟩

end Sys2Proof.Machine
end

