-- ==== Sys2Proof/Laws/Bits.lean ====
section
/-! SUPPORT. The concatenations of bits as numbers: what the values written by shifts, rotates and the address
computation are under toNat. -/

namespace Sys2Proof.Machine

/-- A concatenation as a number. -/
theorem toNat_append {n m : Nat} (x : BitVec n) (y : BitVec m) :
    (x ++ y).toNat = x.toNat * 2 ^ m + y.toNat := by
  rw [BitVec.toNat_append, Nat.shiftLeft_eq, Nat.mul_comm, Nat.two_pow_add_eq_or_of_lt y.isLt]

/-- One bit as a number. -/
theorem toNat_getLsbD (x : Word) (k : Nat) : (x.getLsbD k).toNat = x.toNat / 2 ^ k % 2 := by
  rw [BitVec.getLsbD, Nat.testBit_eq_decide_div_mod_eq]
  by_cases h : x.toNat / 2 ^ k % 2 = 1
  · simp [h]
  · have : x.toNat / 2 ^ k % 2 = 0 := by omega
    simp [this]

theorem getLsbD_31_iff (x : Word) : x.getLsbD 31 = true ↔ 2 ^ 31 ≤ x.toNat := by
  have h := toNat_getLsbD x 31
  have hx := x.isLt
  cases hb : x.getLsbD 31 <;> simp only [hb, Bool.toNat_false, Bool.toNat_true] at h <;> simp <;> omega

theorem getLsbD_30_iff (x : Word) : x.getLsbD 30 = true ↔ 2 ^ 30 ≤ x.toNat % 2 ^ 31 := by
  have h := toNat_getLsbD x 30
  have hx := x.isLt
  cases hb : x.getLsbD 30 <;> simp only [hb, Bool.toNat_false, Bool.toNat_true] at h <;> simp <;> omega

/-- The initial Y of a memory-referencing instruction as a number. -/
theorem initialY_toNat (p : Bool) (off : BitVec 11) (y : Word) :
    (initialY p off y).toNat = directAddress p off y := by
  have hy := y.isLt
  have h : (initialY p off y).toNat = (if p then y.extractLsb' 11 21 else 0#21).toNat * 2 ^ 11 + off.toNat :=
    toNat_append _ _
  rw [h, directAddress]
  cases p
  · simp
  · simp [BitVec.extractLsb'_toNat, Nat.shiftRight_eq_div_pow]
    omega

/-! ### The shift steps as arithmetic on the 65-bit register -/

theorem shiftLeft1_ac_toNat (s : State) :
    s.shiftLeft1.ac.toNat = s.ac.toNat % 2 ^ 31 * 2 + s.mq.toNat / 2 ^ 31 := by
  have h : s.shiftLeft1.ac.toNat =
      (s.ac.extractLsb' 0 31).toNat * 2 ^ 1 + (BitVec.ofBool (s.mq.getLsbD 31)).toNat := toNat_append _ _
  have hm := s.mq.isLt
  rw [h, BitVec.extractLsb'_toNat, BitVec.toNat_ofBool, toNat_getLsbD]
  simp
  omega

theorem shiftLeft1_mq_toNat (s : State) : s.shiftLeft1.mq.toNat = s.mq.toNat % 2 ^ 31 * 2 := by
  have h : s.shiftLeft1.mq.toNat = (s.mq.extractLsb' 0 31).toNat * 2 ^ 1 + (0#1).toNat := toNat_append _ _
  rw [h, BitVec.extractLsb'_toNat]
  simp

theorem shiftLeft1_l_toNat (s : State) : s.shiftLeft1.l.toNat = s.ac.toNat / 2 ^ 31 := by
  have h : s.shiftLeft1.l.toNat = s.ac.toNat / 2 ^ 31 % 2 := toNat_getLsbD _ _
  have ha := s.ac.isLt
  omega

theorem shiftRight1_ac_toNat (f : Bool) (s : State) :
    (s.shiftRight1 f).ac.toNat = f.toNat * 2 ^ 31 + s.ac.toNat / 2 := by
  have h : (s.shiftRight1 f).ac.toNat =
      (BitVec.ofBool f).toNat * 2 ^ 31 + (s.ac.extractLsb' 1 31).toNat := toNat_append _ _
  have ha := s.ac.isLt
  rw [h, BitVec.extractLsb'_toNat, BitVec.toNat_ofBool, Nat.shiftRight_eq_div_pow]
  omega

theorem shiftRight1_mq_toNat (f : Bool) (s : State) :
    (s.shiftRight1 f).mq.toNat = s.ac.toNat % 2 * 2 ^ 31 + s.mq.toNat / 2 := by
  have h : (s.shiftRight1 f).mq.toNat =
      (BitVec.ofBool (s.ac.getLsbD 0)).toNat * 2 ^ 31 + (s.mq.extractLsb' 1 31).toNat := toNat_append _ _
  have hm := s.mq.isLt
  rw [h, BitVec.extractLsb'_toNat, BitVec.toNat_ofBool, toNat_getLsbD, Nat.shiftRight_eq_div_pow]
  omega

end Sys2Proof.Machine
end

