-- ==== Sys2Proof/Laws/PerInstr.lean ====
section
/-! SUPPORT. The per-instruction family `RowMatch`: the word the encoder writes for an instruction selects the
instruction's row of spec/opcode_table.json, that is, agrees with the row's match under the row's mask (R110). -/

namespace Sys2Proof.Laws

/-- The match and the mask of the instruction's row, as spec/opcode_table.json lists them. -/
def rowOf : Instr → Word × Word
  | .imm _ => (0x80000000, 0x80000000)
  | .and _ _ _ => (0x00000000, 0xFFFFE000)
  | .tad _ _ _ => (0x00002000, 0xFFFFE000)
  | .dca _ _ _ => (0x00004000, 0xFFFFE000)
  | .isz _ _ _ => (0x00006000, 0xFFFFE000)
  | .jms _ _ _ => (0x00008000, 0xFFFFE000)
  | .jmp _ _ _ => (0x0000A000, 0xFFFFE000)
  | .iot _ _ _ => (0x0000C000, 0xFFFFE000)
  | .group1 _ _ => (0x0000E000, 0xFFFFE800)
  | .nop => (0x0000E000, 0xFFFFFFFF)
  | .cla1 _ => (0x0000E200, 0xFFFFEA00)
  | .cll _ => (0x0000E100, 0xFFFFE900)
  | .cma _ => (0x0000E040, 0xFFFFE840)
  | .cml _ => (0x0000E020, 0xFFFFE820)
  | .iac _ => (0x0000E001, 0xFFFFE801)
  | .rar _ => (0x0000E010, 0xFFFFE816)
  | .rtr _ => (0x0000E012, 0xFFFFE816)
  | .ral _ => (0x0000E004, 0xFFFFE816)
  | .rtl _ => (0x0000E006, 0xFFFFE816)
  | .hsw _ => (0x0000E002, 0xFFFFE816)
  | .pca _ => (0x0000E016, 0xFFFFE816)
  | .bsw _ => (0x0000E014, 0xFFFFE816)
  | .group2 _ _ => (0x0000E800, 0xFFFFE801)
  | .cla2 _ => (0x0000EA00, 0xFFFFEA01)
  | .sma _ => (0x0000E900, 0xFFFFE901)
  | .sza _ => (0x0000E840, 0xFFFFE841)
  | .snl _ => (0x0000E820, 0xFFFFE821)
  | .reverse _ _ => (0x0000E810, 0xFFFFE811)
  | .spa _ => (0x0000E910, 0xFFFFE911)
  | .sna _ => (0x0000E850, 0xFFFFE851)
  | .szl _ => (0x0000E830, 0xFFFFE831)
  | .skp _ => (0x0000E810, 0xFFFFE971)
  | .hlt _ => (0x0000E802, 0xFFFFE803)
  | .group3 _ _ _ => (0x0000E801, 0xFFFFE801)
  | .cla3 _ _ => (0x0000EA01, 0xFFFFEA01)
  | .mqa _ _ => (0x0000EC01, 0xFFFFED01)
  | .mql _ _ => (0x0000E901, 0xFFFFED01)
  | .swp _ _ => (0x0000ED01, 0xFFFFED01)
  | .eop0 _ _ => (0x0000E801, 0xFFFFE8F1)
  | .asc _ _ => (0x0000E811, 0xFFFFE8F1)
  | .muy _ _ => (0x0000E821, 0xFFFFE8F1)
  | .dvi _ _ => (0x0000E831, 0xFFFFE8F1)
  | .nmi _ _ => (0x0000E841, 0xFFFFE8F1)
  | .shl _ _ => (0x0000E851, 0xFFFFE8F1)
  | .lsr _ _ => (0x0000E861, 0xFFFFE8F1)
  | .asr _ _ => (0x0000E871, 0xFFFFE8F1)
  | .sca _ _ => (0x0000E881, 0xFFFFE8F1)
  | .dad _ _ => (0x0000E891, 0xFFFFE8F1)
  | .dst _ _ => (0x0000E8A1, 0xFFFFE8F1)
  | .eopB _ _ => (0x0000E8B1, 0xFFFFE8F1)
  | .dpic _ _ => (0x0000E8C1, 0xFFFFE8F1)
  | .dpsz _ _ => (0x0000E8D1, 0xFFFFE8F1)
  | .dcm _ _ => (0x0000E8E1, 0xFFFFE8F1)
  | .sam _ _ => (0x0000E8F1, 0xFFFFE8F1)

/-- The encoded word selects the instruction's row. -/
abbrev RowMatch.Statement (i : Instr) : Prop := encode i &&& (rowOf i).2 = (rowOf i).1

/-! ### The encodings with operands -/

theorem imm_row (v : BitVec 31) : encode (.imm v) &&& 0x80000000 = 0x80000000 := by
  show (1#1 ++ v) &&& (1#1 ++ 0#31) = 1#1 ++ 0#31
  rw [BitVec.and_append]
  simp

theorem mri_row (op : BitVec 3) (i p : Bool) (off : BitVec 11) :
    encodeMri op i p off &&& 0xFFFFE000 = 0#16 ++ op ++ 0#13 := by
  have hz : (0#16 ++ op ++ 0#13 : Word) = 0#16 ++ op ++ 0#1 ++ 0#1 ++ 0#11 := by
    revert op; decide
  rw [hz]
  show ((0#16 ++ op ++ bit i ++ bit p ++ off : BitVec (16 + 3 + 1 + 1 + 11)) &&&
      (BitVec.allOnes 16 ++ BitVec.allOnes 3 ++ 0#1 ++ 0#1 ++ 0#11 : BitVec (16 + 3 + 1 + 1 + 11))) =
    (0#16 ++ op ++ 0#1 ++ 0#1 ++ 0#11 : BitVec (16 + 3 + 1 + 1 + 11))
  simp only [BitVec.and_append, BitVec.and_allOnes, BitVec.and_zero]

theorem iot_row (x : Bool) (d : BitVec 8) (dop : BitVec 4) :
    encode (.iot x d dop) &&& 0xFFFFE000 = 0x0000C000 := by
  show ((0#16 ++ 6#3 ++ bit x ++ d ++ dop : BitVec (16 + 3 + 1 + 8 + 4)) &&&
      (BitVec.allOnes 16 ++ BitVec.allOnes 3 ++ 0#1 ++ 0#8 ++ 0#4 : BitVec (16 + 3 + 1 + 8 + 4))) =
    (0#16 ++ 6#3 ++ 0#1 ++ 0#8 ++ 0#4 : BitVec (16 + 3 + 1 + 8 + 4))
  simp only [BitVec.and_append, BitVec.and_allOnes, BitVec.and_zero]

/-! ### The class rows -/

theorem group1_row (f : Opr1) (u : BitVec 4) : encode (.group1 f u) &&& 0xFFFFE800 = 0x0000E000 := by
  obtain ⟨a, b, c, d, e, r⟩ := f
  revert u
  cases a <;> cases b <;> cases c <;> cases d <;> cases e <;> cases r <;> decide

theorem group2_row (f : Opr2) (u : BitVec 5) : encode (.group2 f u) &&& 0xFFFFE801 = 0x0000E800 := by
  obtain ⟨a, b, c, d, e⟩ := f
  revert u
  cases a <;> cases b <;> cases c <;> cases d <;> cases e <;> decide

theorem reverse_row (f : Opr2) (u : BitVec 5) : encode (.reverse f u) &&& 0xFFFFE811 = 0x0000E810 := by
  obtain ⟨a, b, c, d, e⟩ := f
  revert u
  cases a <;> cases b <;> cases c <;> cases d <;> cases e <;> decide

theorem group3_row (f : Opr3) (i : Bool) (u : BitVec 3) :
    encode (.group3 f i u) &&& 0xFFFFE801 = 0x0000E801 := by
  obtain ⟨a, m, e⟩ := f
  revert i u
  cases a <;> cases m <;> cases e <;> decide

/-! ### The family, one lemma per constructor -/

theorem RowMatch.imm (v : BitVec 31) : RowMatch.Statement (.imm v) := imm_row v

theorem RowMatch.and (i p : Bool) (off : BitVec 11) : RowMatch.Statement (.and i p off) := mri_row 0 i p off

theorem RowMatch.tad (i p : Bool) (off : BitVec 11) : RowMatch.Statement (.tad i p off) := mri_row 1 i p off

theorem RowMatch.dca (i p : Bool) (off : BitVec 11) : RowMatch.Statement (.dca i p off) := mri_row 2 i p off

theorem RowMatch.isz (i p : Bool) (off : BitVec 11) : RowMatch.Statement (.isz i p off) := mri_row 3 i p off

theorem RowMatch.jms (i p : Bool) (off : BitVec 11) : RowMatch.Statement (.jms i p off) := mri_row 4 i p off

theorem RowMatch.jmp (i p : Bool) (off : BitVec 11) : RowMatch.Statement (.jmp i p off) := mri_row 5 i p off

theorem RowMatch.iot (x : Bool) (d : BitVec 8) (dop : BitVec 4) : RowMatch.Statement (.iot x d dop) := iot_row x d dop

theorem RowMatch.group1 (f : Opr1) (u : BitVec 4) : RowMatch.Statement (.group1 f u) := group1_row f u

theorem RowMatch.nop : RowMatch.Statement (.nop) := by decide

theorem RowMatch.cla1 (u : BitVec 4) : RowMatch.Statement (.cla1 u) := by revert u; decide

theorem RowMatch.cll (u : BitVec 4) : RowMatch.Statement (.cll u) := by revert u; decide

theorem RowMatch.cma (u : BitVec 4) : RowMatch.Statement (.cma u) := by revert u; decide

theorem RowMatch.cml (u : BitVec 4) : RowMatch.Statement (.cml u) := by revert u; decide

theorem RowMatch.iac (u : BitVec 4) : RowMatch.Statement (.iac u) := by revert u; decide

theorem RowMatch.rar (u : BitVec 4) : RowMatch.Statement (.rar u) := by revert u; decide

theorem RowMatch.rtr (u : BitVec 4) : RowMatch.Statement (.rtr u) := by revert u; decide

theorem RowMatch.ral (u : BitVec 4) : RowMatch.Statement (.ral u) := by revert u; decide

theorem RowMatch.rtl (u : BitVec 4) : RowMatch.Statement (.rtl u) := by revert u; decide

theorem RowMatch.hsw (u : BitVec 4) : RowMatch.Statement (.hsw u) := by revert u; decide

theorem RowMatch.pca (u : BitVec 4) : RowMatch.Statement (.pca u) := by revert u; decide

theorem RowMatch.bsw (u : BitVec 4) : RowMatch.Statement (.bsw u) := by revert u; decide

theorem RowMatch.group2 (f : Opr2) (u : BitVec 5) : RowMatch.Statement (.group2 f u) := group2_row f u

theorem RowMatch.cla2 (u : BitVec 5) : RowMatch.Statement (.cla2 u) := by revert u; decide

theorem RowMatch.sma (u : BitVec 5) : RowMatch.Statement (.sma u) := by revert u; decide

theorem RowMatch.sza (u : BitVec 5) : RowMatch.Statement (.sza u) := by revert u; decide

theorem RowMatch.snl (u : BitVec 5) : RowMatch.Statement (.snl u) := by revert u; decide

theorem RowMatch.reverse (f : Opr2) (u : BitVec 5) : RowMatch.Statement (.reverse f u) := reverse_row f u

theorem RowMatch.spa (u : BitVec 5) : RowMatch.Statement (.spa u) := by revert u; decide

theorem RowMatch.sna (u : BitVec 5) : RowMatch.Statement (.sna u) := by revert u; decide

theorem RowMatch.szl (u : BitVec 5) : RowMatch.Statement (.szl u) := by revert u; decide

theorem RowMatch.skp (u : BitVec 5) : RowMatch.Statement (.skp u) := by revert u; decide

theorem RowMatch.hlt (u : BitVec 5) : RowMatch.Statement (.hlt u) := by revert u; decide

theorem RowMatch.group3 (f : Opr3) (i : Bool) (u : BitVec 3) : RowMatch.Statement (.group3 f i u) := group3_row f i u

theorem RowMatch.cla3 (i : Bool) (u : BitVec 3) : RowMatch.Statement (.cla3 i u) := by revert i u; decide

theorem RowMatch.mqa (i : Bool) (u : BitVec 3) : RowMatch.Statement (.mqa i u) := by revert i u; decide

theorem RowMatch.mql (i : Bool) (u : BitVec 3) : RowMatch.Statement (.mql i u) := by revert i u; decide

theorem RowMatch.swp (i : Bool) (u : BitVec 3) : RowMatch.Statement (.swp i u) := by revert i u; decide

theorem RowMatch.eop0 (i : Bool) (u : BitVec 3) : RowMatch.Statement (.eop0 i u) := by revert i u; decide

theorem RowMatch.asc (i : Bool) (u : BitVec 3) : RowMatch.Statement (.asc i u) := by revert i u; decide

theorem RowMatch.muy (i : Bool) (u : BitVec 3) : RowMatch.Statement (.muy i u) := by revert i u; decide

theorem RowMatch.dvi (i : Bool) (u : BitVec 3) : RowMatch.Statement (.dvi i u) := by revert i u; decide

theorem RowMatch.nmi (i : Bool) (u : BitVec 3) : RowMatch.Statement (.nmi i u) := by revert i u; decide

theorem RowMatch.shl (i : Bool) (u : BitVec 3) : RowMatch.Statement (.shl i u) := by revert i u; decide

theorem RowMatch.lsr (i : Bool) (u : BitVec 3) : RowMatch.Statement (.lsr i u) := by revert i u; decide

theorem RowMatch.asr (i : Bool) (u : BitVec 3) : RowMatch.Statement (.asr i u) := by revert i u; decide

theorem RowMatch.sca (i : Bool) (u : BitVec 3) : RowMatch.Statement (.sca i u) := by revert i u; decide

theorem RowMatch.dad (i : Bool) (u : BitVec 3) : RowMatch.Statement (.dad i u) := by revert i u; decide

theorem RowMatch.dst (i : Bool) (u : BitVec 3) : RowMatch.Statement (.dst i u) := by revert i u; decide

theorem RowMatch.eopB (i : Bool) (u : BitVec 3) : RowMatch.Statement (.eopB i u) := by revert i u; decide

theorem RowMatch.dpic (i : Bool) (u : BitVec 3) : RowMatch.Statement (.dpic i u) := by revert i u; decide

theorem RowMatch.dpsz (i : Bool) (u : BitVec 3) : RowMatch.Statement (.dpsz i u) := by revert i u; decide

theorem RowMatch.dcm (i : Bool) (u : BitVec 3) : RowMatch.Statement (.dcm i u) := by revert i u; decide

theorem RowMatch.sam (i : Bool) (u : BitVec 3) : RowMatch.Statement (.sam i u) := by revert i u; decide

end Sys2Proof.Laws
end

