-- ==== Sys2Proof/Tests/Slice0.lean ====
section
/-! SUPPORT. The model's own tests: well-formedness, words written out from the format tables of
spec/30_encoding.md, one-step vectors whose expected values stand in spec/95_test_vectors.md (the vector is named
at each), and for every statement with hypotheses a concrete state and operands that meet them. -/

namespace Sys2Proof.Tests

open Sys2Proof.Machine

/-! ### Helpers -/

/-- A running machine at `pc0` with a small memory. -/
def machine (pc0 : Word) (cells : Memory) (ac mq : Word) (l : Bool) (sc : BitVec 7) : State :=
  { State.reset with pc := pc0, mem := cells, ac := ac, mq := mq, l := l, sc := sc }

/-- The registers a vector names. -/
structure Registers where
  ac : Word
  mq : Word
  l : Bool
  pc : Word
  sc : BitVec 7
  skip : Bool
  run : Bool
deriving DecidableEq, Repr

/-- The registers after a step; none where the step stops. -/
def registers : Host.Outcome State Fault Refusal → Option Registers
  | .next t => some ⟨t.ac, t.mq, t.l, t.pc, t.sc, t.skip, t.run⟩
  | _ => none

/-- A word of memory after a step. -/
def wordAfter (a : Word) : Host.Outcome State Fault Refusal → Option Word
  | .next t => some (t.readWord a)
  | _ => none

/-! ### Well-formedness: each check refuses an ill-formed term -/

theorem test_group1_of_one_action_is_ill_formed : (Instr.group1 { cla := true } 0).wellFormed = false := by decide
theorem test_group1_of_no_bit_is_ill_formed : (Instr.group1 {} 0).wellFormed = false := by decide
theorem test_group2_of_one_test_is_ill_formed : (Instr.group2 { sma := true } 0).wellFormed = false := by decide
theorem test_reverse_of_no_test_is_ill_formed : (Instr.reverse {} 0).wellFormed = false := by decide
theorem test_reverse_of_one_test_is_ill_formed : (Instr.reverse { snl := true } 3).wellFormed = false := by decide
theorem test_group3_of_one_action_is_ill_formed :
    (Instr.group3 { eop := .nmi } false 0).wellFormed = false := by decide
theorem test_group3_of_no_action_is_ill_formed : (Instr.group3 {} false 0).wellFormed = false := by decide

/-! ### Decoding: words written out from the formats, every constructor -/

theorem test_decode_imm :
    decode 0x80000005 = .ok (.imm 5) ∧
    decode 0xFFFFFFFF = .ok (.imm 0x7FFFFFFF) := by
  exact ⟨rfl, rfl⟩

theorem test_decode_mri :
    decode 0x00000010 = .ok (.and false false 0x010) ∧
    decode 0x00003210 = .ok (.tad true false 0x210) ∧
    decode 0x00004FFF = .ok (.dca false true 0x7FF) ∧
    decode 0x00007A50 = .ok (.isz true true 0x250) ∧
    decode 0x00008020 = .ok (.jms false false 0x020) ∧
    decode 0x0000B020 = .ok (.jmp true false 0x020) := by
  exact ⟨rfl, rfl, rfl, rfl, rfl, rfl⟩

theorem test_decode_iot :
    decode 0x0000C345 = .ok (.iot false 0x34 5) ∧
    decode 0x0000DFFF = .ok (.iot true 0xFF 0xF) := by
  exact ⟨rfl, rfl⟩

theorem test_decode_group1 :
    decode 0x0000E000 = .ok (.nop) ∧
    decode 0x0000E200 = .ok (.cla1 0) ∧
    decode 0x0000E100 = .ok (.cll 0) ∧
    decode 0x0000E040 = .ok (.cma 0) ∧
    decode 0x0000E020 = .ok (.cml 0) ∧
    decode 0x0000E001 = .ok (.iac 0) ∧
    decode 0x0000E010 = .ok (.rar 0) ∧
    decode 0x0000E012 = .ok (.rtr 0) ∧
    decode 0x0000E004 = .ok (.ral 0) ∧
    decode 0x0000E006 = .ok (.rtl 0) ∧
    decode 0x0000E002 = .ok (.hsw 0) ∧
    decode 0x0000E016 = .ok (.pca 0) ∧
    decode 0x0000E014 = .ok (.bsw 0) ∧
    decode 0x0000F488 = .ok (.group1 {} 0xF) ∧
    decode 0x0000E300 = .ok (.group1 { cla := true, cll := true } 0) ∧
    decode 0x0000F200 = .ok (.cla1 8) ∧
    decode 0x0000E408 = .ok (.group1 {} 5) := by
  exact ⟨rfl, rfl, rfl, rfl, rfl, rfl, rfl, rfl, rfl, rfl, rfl, rfl, rfl, rfl, rfl, rfl, rfl⟩

theorem test_decode_group2 :
    decode 0x0000E800 = .ok (.group2 {} 0) ∧
    decode 0x0000EA00 = .ok (.cla2 0) ∧
    decode 0x0000E900 = .ok (.sma 0) ∧
    decode 0x0000E840 = .ok (.sza 0) ∧
    decode 0x0000E820 = .ok (.snl 0) ∧
    decode 0x0000E802 = .ok (.hlt 0) ∧
    decode 0x0000E910 = .ok (.spa 0) ∧
    decode 0x0000E850 = .ok (.sna 0) ∧
    decode 0x0000E830 = .ok (.szl 0) ∧
    decode 0x0000E810 = .ok (.skp 0) ∧
    decode 0x0000E950 = .ok (.reverse { sma := true, sza := true } 0) ∧
    decode 0x0000E812 = .ok (.reverse { hlt := true } 0) ∧
    decode 0x0000E842 = .ok (.group2 { sza := true, hlt := true } 0) ∧
    decode 0x0000FC8C = .ok (.group2 {} 0x1F) ∧
    decode 0x0000E806 = .ok (.hlt 1) := by
  exact ⟨rfl, rfl, rfl, rfl, rfl, rfl, rfl, rfl, rfl, rfl, rfl, rfl, rfl, rfl, rfl⟩

theorem test_decode_group3 :
    decode 0x0000E801 = .ok (.eop0 false 0) ∧
    decode 0x0000EA01 = .ok (.cla3 false 0) ∧
    decode 0x0000EC01 = .ok (.mqa false 0) ∧
    decode 0x0000E901 = .ok (.mql false 0) ∧
    decode 0x0000ED01 = .ok (.swp false 0) ∧
    decode 0x0000E811 = .ok (.asc false 0) ∧
    decode 0x0000F821 = .ok (.muy true 0) ∧
    decode 0x0000E831 = .ok (.dvi false 0) ∧
    decode 0x0000E841 = .ok (.nmi false 0) ∧
    decode 0x0000E851 = .ok (.shl false 0) ∧
    decode 0x0000E861 = .ok (.lsr false 0) ∧
    decode 0x0000E871 = .ok (.asr false 0) ∧
    decode 0x0000E881 = .ok (.sca false 0) ∧
    decode 0x0000E891 = .ok (.dad false 0) ∧
    decode 0x0000F8A1 = .ok (.dst true 0) ∧
    decode 0x0000E8B1 = .ok (.eopB false 0) ∧
    decode 0x0000E8C1 = .ok (.dpic false 0) ∧
    decode 0x0000E8D1 = .ok (.dpsz false 0) ∧
    decode 0x0000E8E1 = .ok (.dcm false 0) ∧
    decode 0x0000E8F1 = .ok (.sam false 0) ∧
    decode 0x0000FFFF = .ok (.group3 { cla := true, mq := .swp, eop := .sam } true 7) ∧
    decode 0x0000E803 = .ok (.eop0 false 1) := by
  exact ⟨rfl, rfl, rfl, rfl, rfl, rfl, rfl, rfl, rfl, rfl, rfl, rfl, rfl, rfl, rfl, rfl, rfl, rfl, rfl, rfl, rfl, rfl⟩

theorem test_decode_reserved :
    decode 0x00010000 = .error (.reserved 0x00010000) ∧ decode 0x7FFFFFFF = .error (.reserved 0x7FFFFFFF) := by
  exact ⟨rfl, rfl⟩

theorem test_table_word_is_decoded : decodeTableWord 32 0x0000E802 = some (.hlt 0) := by rfl
theorem test_reserved_table_word_is_not : decodeTableWord 32 0x00010000 = none := by rfl
theorem test_placed_word_runs :
    registers (step (State.reset.withFetchWord 32 0x0000E802)) = some ⟨0, 0, false, 1, 0, false, false⟩ := by decide

/-! ### One step of each instruction -/

/-- V-IMM-04. -/
theorem test_imm :
    registers (step (machine 0x100 [(0x100, 0xBFFFFFFF)] 0x0 0x0 false 0x0)) =
      some ⟨0x3FFFFFFF, 0x0, false, 0x101, 0x0, false, true⟩ := by decide

/-- V-IMM-09. -/
theorem test_imm_at_the_last_word :
    registers (step (machine 0xFFF [(0xFFF, 0x80000001)] 0x0 0x0 false 0x0)) =
      some ⟨0x1, 0x0, false, 0x0, 0x0, false, true⟩ := by decide

/-- V-MRI-02. -/
theorem test_and_current_page :
    registers (step (machine 0x900 [(0x810, 0xFFFF), (0x900, 0x810)] 0x12345678 0x0 false 0x0)) =
      some ⟨0x5678, 0x0, false, 0x901, 0x0, false, true⟩ := by decide

/-- V-MRI-05. -/
theorem test_tad_carry :
    registers (step (machine 0x100 [(0x10, 0x1), (0x100, 0x2010)] 0xFFFFFFFF 0x0 true 0x0)) =
      some ⟨0x0, 0x0, false, 0x101, 0x0, false, true⟩ := by decide

/-- V-MRI-10. -/
theorem test_tad_in_the_last_word_of_a_page :
    registers (step (machine 0x7FF [(0x7FF, 0x2FFF)] 0x1 0x0 false 0x0)) =
      some ⟨0x3000, 0x0, false, 0x800, 0x0, false, true⟩ := by decide

/-- V-MRI-13. -/
theorem test_dca_autoincrement :
    registers (step (machine 0x100 [(0x100, 0x5250), (0x250, 0x3FF)] 0x55 0x0 false 0x0)) =
      some ⟨0x0, 0x0, false, 0x101, 0x0, false, true⟩ ∧
    wordAfter 0x250 (step (machine 0x100 [(0x100, 0x5250), (0x250, 0x3FF)] 0x55 0x0 false 0x0)) = some 0x400 ∧
    wordAfter 0x400 (step (machine 0x100 [(0x100, 0x5250), (0x250, 0x3FF)] 0x55 0x0 false 0x0)) = some 0x55 := by decide

/-- V-MRI-15. -/
theorem test_dca_outside_the_range :
    registers (step (machine 0x100 [(0x100, 0x5300), (0x300, 0x400)] 0x55 0x0 false 0x0)) =
      some ⟨0x0, 0x0, false, 0x101, 0x0, false, true⟩ ∧
    wordAfter 0x300 (step (machine 0x100 [(0x100, 0x5300), (0x300, 0x400)] 0x55 0x0 false 0x0)) = some 0x400 ∧
    wordAfter 0x400 (step (machine 0x100 [(0x100, 0x5300), (0x300, 0x400)] 0x55 0x0 false 0x0)) = some 0x55 := by decide

/-- V-MRI-20. -/
theorem test_isz_wraps :
    registers (step (machine 0x100 [(0x10, 0xFFFFFFFF), (0x100, 0x6010)] 0x3 0x0 true 0x0)) =
      some ⟨0x3, 0x0, true, 0x101, 0x0, true, true⟩ ∧
    wordAfter 0x10 (step (machine 0x100 [(0x10, 0xFFFFFFFF), (0x100, 0x6010)] 0x3 0x0 true 0x0)) = some 0x0 := by decide

/-- V-MRI-22. -/
theorem test_isz_of_no_word :
    registers (step (machine 0x100 [(0x10, 0x5000), (0x100, 0x7010)] 0x0 0x0 false 0x0)) =
      some ⟨0x0, 0x0, false, 0x101, 0x0, true, true⟩ ∧
    wordAfter 0x5000 (step (machine 0x100 [(0x10, 0x5000), (0x100, 0x7010)] 0x0 0x0 false 0x0)) = some 0x0 := by decide

/-- V-MRI-24. -/
theorem test_jms :
    registers (step (machine 0x100 [(0x100, 0x8020)] 0x9 0x0 true 0x0)) =
      some ⟨0x9, 0x0, true, 0x21, 0x0, false, true⟩ ∧
    wordAfter 0x20 (step (machine 0x100 [(0x100, 0x8020)] 0x9 0x0 true 0x0)) = some 0x102 := by decide

/-- V-MRI-26. -/
theorem test_jms_at_the_last_word :
    registers (step (machine 0xFFF [(0xFFF, 0x8020)] 0x0 0x0 false 0x0)) =
      some ⟨0x0, 0x0, false, 0x21, 0x0, false, true⟩ ∧
    wordAfter 0x20 (step (machine 0xFFF [(0xFFF, 0x8020)] 0x0 0x0 false 0x0)) = some 0x1 := by decide

/-- V-MRI-31. -/
theorem test_jmp_through_a_pointer :
    registers (step (machine 0x100 [(0x100, 0xB210), (0x210, 0x4FF)] 0x0 0x0 false 0x0)) =
      some ⟨0x0, 0x0, false, 0x500, 0x0, false, true⟩ ∧
    wordAfter 0x210 (step (machine 0x100 [(0x100, 0xB210), (0x210, 0x4FF)] 0x0 0x0 false 0x0)) = some 0x500 := by decide

/-- V-MRI-29. -/
theorem test_jmp_anywhere :
    registers (step (machine 0x100 [(0x20, 0x12345678), (0x100, 0xB020)] 0x0 0x0 false 0x0)) =
      some ⟨0x0, 0x0, false, 0x12345678, 0x0, false, true⟩ := by decide

/-- V-IOT-02. -/
theorem test_iot :
    registers (step (machine 0x100 [(0x100, 0xDFFF)] 0x1 0x0 false 0x0)) =
      some ⟨0x1, 0x0, false, 0x101, 0x0, false, true⟩ := by decide

/-- V-OPR1-25. -/
theorem test_group1_full_sequence :
    registers (step (machine 0x100 [(0x100, 0xE365)] 0x1234 0x0 true 0x0)) =
      some ⟨0x0, 0x0, false, 0x101, 0x0, false, true⟩ := by decide

/-- V-OPR1-27. -/
theorem test_group1_clear_increment_rotate :
    registers (step (machine 0x100 [(0x100, 0xE207)] 0x9 0x0 true 0x0)) =
      some ⟨0x6, 0x0, false, 0x101, 0x0, false, true⟩ := by decide

/-- V-OPR1-01. -/
theorem test_nop :
    registers (step (machine 0x100 [(0x100, 0xE000)] 0x1 0x2 true 0x3)) =
      some ⟨0x1, 0x2, true, 0x101, 0x3, false, true⟩ := by decide

/-- V-OPR1-02. -/
theorem test_cla1 :
    registers (step (machine 0x100 [(0x100, 0xE200)] 0x5 0x0 true 0x0)) =
      some ⟨0x0, 0x0, true, 0x101, 0x0, false, true⟩ := by decide

/-- V-OPR1-03. -/
theorem test_cll :
    registers (step (machine 0x100 [(0x100, 0xE100)] 0x5 0x0 true 0x0)) =
      some ⟨0x5, 0x0, false, 0x101, 0x0, false, true⟩ := by decide

/-- V-OPR1-04. -/
theorem test_cma :
    registers (step (machine 0x100 [(0x100, 0xE040)] 0x5 0x0 false 0x0)) =
      some ⟨0xFFFFFFFA, 0x0, false, 0x101, 0x0, false, true⟩ := by decide

/-- V-OPR1-06. -/
theorem test_cml :
    registers (step (machine 0x100 [(0x100, 0xE020)] 0x0 0x0 false 0x0)) =
      some ⟨0x0, 0x0, true, 0x101, 0x0, false, true⟩ := by decide

/-- V-OPR1-07. -/
theorem test_iac_carry :
    registers (step (machine 0x100 [(0x100, 0xE001)] 0xFFFFFFFF 0x0 false 0x0)) =
      some ⟨0x0, 0x0, true, 0x101, 0x0, false, true⟩ := by decide

/-- V-OPR1-08. -/
theorem test_iac_no_carry :
    registers (step (machine 0x100 [(0x100, 0xE001)] 0x7FFFFFFF 0x0 false 0x0)) =
      some ⟨0x80000000, 0x0, false, 0x101, 0x0, false, true⟩ := by decide

/-- V-OPR1-14. -/
theorem test_rar :
    registers (step (machine 0x100 [(0x100, 0xE010)] 0x80000000 0x0 true 0x0)) =
      some ⟨0xC0000000, 0x0, false, 0x101, 0x0, false, true⟩ := by decide

/-- V-OPR1-16. -/
theorem test_rtr :
    registers (step (machine 0x100 [(0x100, 0xE012)] 0x2 0x0 true 0x0)) =
      some ⟨0x40000000, 0x0, true, 0x101, 0x0, false, true⟩ := by decide

/-- V-OPR1-18. -/
theorem test_ral :
    registers (step (machine 0x100 [(0x100, 0xE004)] 0x1 0x0 true 0x0)) =
      some ⟨0x3, 0x0, false, 0x101, 0x0, false, true⟩ := by decide

/-- V-OPR1-20. -/
theorem test_rtl :
    registers (step (machine 0x100 [(0x100, 0xE006)] 0x40000001 0x0 true 0x0)) =
      some ⟨0x6, 0x0, true, 0x101, 0x0, false, true⟩ := by decide

/-- V-OPR1-21. -/
theorem test_hsw :
    registers (step (machine 0x100 [(0x100, 0xE002)] 0x12345678 0x0 true 0x0)) =
      some ⟨0x56781234, 0x0, true, 0x101, 0x0, false, true⟩ := by decide

/-- V-OPR1-23. -/
theorem test_pca_at_the_last_word :
    registers (step (machine 0xFFF [(0xFFF, 0xE016)] 0x999 0x0 false 0x0)) =
      some ⟨0x0, 0x0, false, 0x0, 0x0, false, true⟩ := by decide

/-- V-OPR1-24. -/
theorem test_bsw :
    registers (step (machine 0x100 [(0x100, 0xE014)] 0x12345678 0x0 false 0x0)) =
      some ⟨0x12346587, 0x0, false, 0x101, 0x0, false, true⟩ := by decide

/-- V-OPR2-16. -/
theorem test_group2_clear_before_test :
    registers (step (machine 0x100 [(0x100, 0xEA40)] 0x3 0x0 false 0x0)) =
      some ⟨0x0, 0x0, false, 0x101, 0x0, true, true⟩ := by decide

/-- V-OPR2-26. -/
theorem test_group2_halt_with_a_skip :
    registers (step (machine 0x100 [(0x100, 0xE842)] 0x0 0x0 false 0x0)) =
      some ⟨0x0, 0x0, false, 0x101, 0x0, true, false⟩ := by decide

/-- V-OPR2-15. -/
theorem test_cla2 :
    registers (step (machine 0x100 [(0x100, 0xEA00)] 0x7 0x0 true 0x0)) =
      some ⟨0x0, 0x0, true, 0x101, 0x0, false, true⟩ := by decide

/-- V-OPR2-01. -/
theorem test_sma :
    registers (step (machine 0x100 [(0x100, 0xE900)] 0x80000000 0x0 false 0x0)) =
      some ⟨0x80000000, 0x0, false, 0x101, 0x0, true, true⟩ := by decide

/-- V-OPR2-04. -/
theorem test_sza :
    registers (step (machine 0x100 [(0x100, 0xE840)] 0x1 0x0 false 0x0)) =
      some ⟨0x1, 0x0, false, 0x101, 0x0, false, true⟩ := by decide

/-- V-OPR2-05. -/
theorem test_snl :
    registers (step (machine 0x100 [(0x100, 0xE820)] 0x0 0x0 true 0x0)) =
      some ⟨0x0, 0x0, true, 0x101, 0x0, true, true⟩ := by decide

/-- V-OPR2-20. -/
theorem test_reverse_of_two_tests :
    registers (step (machine 0x100 [(0x100, 0xE950)] 0x5 0x0 false 0x0)) =
      some ⟨0x5, 0x0, false, 0x101, 0x0, true, true⟩ := by decide

/-- V-OPR2-21. -/
theorem test_reverse_of_two_tests_on_zero :
    registers (step (machine 0x100 [(0x100, 0xE950)] 0x0 0x0 false 0x0)) =
      some ⟨0x0, 0x0, false, 0x101, 0x0, false, true⟩ := by decide

/-- V-OPR2-08. -/
theorem test_spa :
    registers (step (machine 0x100 [(0x100, 0xE910)] 0x0 0x0 false 0x0)) =
      some ⟨0x0, 0x0, false, 0x101, 0x0, true, true⟩ := by decide

/-- V-OPR2-10. -/
theorem test_sna :
    registers (step (machine 0x100 [(0x100, 0xE850)] 0x1 0x0 false 0x0)) =
      some ⟨0x1, 0x0, false, 0x101, 0x0, true, true⟩ := by decide

/-- V-OPR2-12. -/
theorem test_szl :
    registers (step (machine 0x100 [(0x100, 0xE830)] 0x0 0x0 true 0x0)) =
      some ⟨0x0, 0x0, true, 0x101, 0x0, false, true⟩ := by decide

/-- V-OPR2-13. -/
theorem test_skp :
    registers (step (machine 0x100 [(0x100, 0xE810)] 0x0 0x0 false 0x0)) =
      some ⟨0x0, 0x0, false, 0x101, 0x0, true, true⟩ := by decide

/-- V-OPR2-25. -/
theorem test_hlt :
    registers (step (machine 0x100 [(0x100, 0xE802)] 0x3 0x0 false 0x0)) =
      some ⟨0x3, 0x0, false, 0x101, 0x0, false, false⟩ := by decide

/-- V-EOP-20. -/
theorem test_group3_swap_then_subtract :
    registers (step (machine 0x100 [(0x100, 0xEDF1)] 0xA 0x3 false 0x0)) =
      some ⟨0x7, 0xA, false, 0x101, 0x0, false, true⟩ := by decide

/-- V-EOPW-05. -/
theorem test_group3_load_then_multiply :
    registers (step (machine 0x100 [(0x100, 0xE921), (0x101, 0x3)] 0x5 0x0 false 0x0)) =
      some ⟨0x0, 0x14, false, 0x102, 0x0, false, true⟩ := by decide

/-- V-OPR3-02. -/
theorem test_cla3 :
    registers (step (machine 0x100 [(0x100, 0xEA01)] 0x1 0x2 false 0x0)) =
      some ⟨0x0, 0x2, false, 0x101, 0x0, false, true⟩ := by decide

/-- V-OPR3-03. -/
theorem test_mqa :
    registers (step (machine 0x100 [(0x100, 0xEC01)] 0xF0 0xF false 0x0)) =
      some ⟨0xFF, 0xF, false, 0x101, 0x0, false, true⟩ := by decide

/-- V-OPR3-04. -/
theorem test_mql :
    registers (step (machine 0x100 [(0x100, 0xE901)] 0xAA 0x55 false 0x0)) =
      some ⟨0xAA, 0xAA, false, 0x101, 0x0, false, true⟩ := by decide

/-- V-OPR3-05. -/
theorem test_swp :
    registers (step (machine 0x100 [(0x100, 0xED01)] 0xAA 0x55 false 0x0)) =
      some ⟨0x55, 0xAA, false, 0x101, 0x0, false, true⟩ := by decide

/-- V-OPR3-09. -/
theorem test_eop0 :
    registers (step (machine 0x100 [(0x100, 0xF80F)] 0x1 0x2 true 0x3)) =
      some ⟨0x1, 0x2, true, 0x101, 0x3, false, true⟩ := by decide

/-- V-EOP-02. -/
theorem test_asc :
    registers (step (machine 0x100 [(0x100, 0xE811)] 0xFFFFFFFF 0x0 false 0x0)) =
      some ⟨0x0, 0x0, false, 0x101, 0x7F, false, true⟩ := by decide

/-- V-EOPW-01. -/
theorem test_muy :
    registers (step (machine 0x100 [(0x100, 0xE821), (0x101, 0x7)] 0x2 0x6 true 0x5)) =
      some ⟨0x0, 0x2C, false, 0x102, 0x0, false, true⟩ := by decide

/-- V-EOPW-06. -/
theorem test_muy_operand_at_the_last_word :
    registers (step (machine 0xFFE [(0xFFE, 0xE821), (0xFFF, 0x3)] 0x0 0x4 false 0x0)) =
      some ⟨0x0, 0xC, false, 0x0, 0x0, false, true⟩ := by decide

/-- V-EOPW-13. -/
theorem test_dvi :
    registers (step (machine 0x100 [(0x100, 0xF831), (0x101, 0x300), (0x300, 0x3)] 0x1 0x2 false 0x0)) =
      some ⟨0x0, 0x55555556, false, 0x102, 0x0, false, true⟩ := by decide

/-- V-EOP-42. -/
theorem test_nmi :
    registers (step (machine 0x100 [(0x100, 0xE841)] 0xC0000000 0x1 false 0x0)) =
      some ⟨0x80000000, 0x2, true, 0x101, 0x1, false, true⟩ := by decide

/-- V-EOP-39. -/
theorem test_nmi_of_a_normalised_value :
    registers (step (machine 0x100 [(0x100, 0xE841)] 0x40000000 0x0 true 0x9)) =
      some ⟨0x40000000, 0x0, true, 0x101, 0x0, false, true⟩ := by decide

/-- V-EOP-21. -/
theorem test_shl :
    registers (step (machine 0x100 [(0x100, 0xE851)] 0x80000001 0xF0000000 false 0x4)) =
      some ⟨0x1F, 0x0, false, 0x101, 0x0, false, true⟩ := by decide

/-- V-EOP-23. -/
theorem test_shl_of_no_place :
    registers (step (machine 0x100 [(0x100, 0xE851)] 0x80000000 0x1 false 0x0)) =
      some ⟨0x80000000, 0x1, false, 0x101, 0x0, false, true⟩ := by decide

/-- V-EOP-28. -/
theorem test_lsr :
    registers (step (machine 0x100 [(0x100, 0xE861)] 0x80000001 0xF true 0x4)) =
      some ⟨0x8000000, 0x10000000, false, 0x101, 0x0, false, true⟩ := by decide

/-- V-EOP-33. -/
theorem test_asr :
    registers (step (machine 0x100 [(0x100, 0xE871)] 0x80000001 0xF false 0x4)) =
      some ⟨0xF8000000, 0x10000000, true, 0x101, 0x0, false, true⟩ := by decide

/-- V-EOP-05. -/
theorem test_sca :
    registers (step (machine 0x100 [(0x100, 0xE881)] 0x100 0x0 false 0x7F)) =
      some ⟨0x17F, 0x0, false, 0x101, 0x7F, false, true⟩ := by decide

/-- V-EOPW-17. -/
theorem test_dad :
    registers (step (machine 0x100 [(0x100, 0xE891), (0x101, 0x300), (0x300, 0xFFFFFFFF), (0x301, 0x1)] 0x0 0xFFFFFFFF false 0x0)) =
      some ⟨0x0, 0x0, true, 0x102, 0x0, false, true⟩ := by decide

/-- V-EOPW-22. -/
theorem test_dst_of_which_half_exists :
    registers (step (machine 0x100 [(0x100, 0xE8A1), (0x101, 0xFFF)] 0x11 0x22 false 0x0)) =
      some ⟨0x11, 0x22, false, 0x102, 0x0, false, true⟩ ∧
    wordAfter 0xFFF (step (machine 0x100 [(0x100, 0xE8A1), (0x101, 0xFFF)] 0x11 0x22 false 0x0)) = some 0x11 ∧
    wordAfter 0x1000 (step (machine 0x100 [(0x100, 0xE8A1), (0x101, 0xFFF)] 0x11 0x22 false 0x0)) = some 0x0 := by decide

/-- V-EOP-07. -/
theorem test_eopB :
    registers (step (machine 0x100 [(0x100, 0xE8B1)] 0x1 0x2 true 0x3)) =
      some ⟨0x1, 0x2, true, 0x101, 0x3, false, true⟩ := by decide

/-- V-EOP-09. -/
theorem test_dpic :
    registers (step (machine 0x100 [(0x100, 0xE8C1)] 0xFFFFFFFF 0xFFFFFFFF false 0x0)) =
      some ⟨0x0, 0x0, true, 0x101, 0x0, false, true⟩ := by decide

/-- V-EOP-12. -/
theorem test_dpsz :
    registers (step (machine 0x100 [(0x100, 0xE8D1)] 0x0 0x1 false 0x0)) =
      some ⟨0x0, 0x1, false, 0x101, 0x0, false, true⟩ := by decide

/-- V-EOP-15. -/
theorem test_dcm :
    registers (step (machine 0x100 [(0x100, 0xE8E1)] 0x0 0xFFFF true 0x0)) =
      some ⟨0xFFFFFFFF, 0xFFFF0000, true, 0x101, 0x0, false, true⟩ := by decide

/-- V-EOP-17. -/
theorem test_sam :
    registers (step (machine 0x100 [(0x100, 0xE8F1)] 0xA 0x3 false 0x0)) =
      some ⟨0xFFFFFFF9, 0x3, true, 0x101, 0x0, false, true⟩ := by decide

/-- V-EOPW-11: divide overflow; of AC and MQ nothing is said. -/
theorem test_dvi_overflow :
    match step (machine 0x100 [(0x100, 0xE831), (0x101, 7)] 7 0 false 5) with
    | .next t => t.l = true ∧ t.sc = 0 ∧ t.pc = 0x102
    | _ => False := by exact ⟨rfl, rfl, rfl⟩

/-- V-EOP-45: NMI of zero has no next state. -/
theorem test_nmi_of_zero :
    step (machine 0x100 [(0x100, 0xE841)] 0 0 false 0) = .fault .nmiNeverEnds := by rfl

/-- V-RES-01 and V-RES-03: a reserved word is refused, and harmless where it is skipped. -/
theorem test_reserved_word :
    step (machine 0x100 [(0x100, 0x10000)] 0 0 false 0) = .refused (.reservedWord 0x10000) ∧
    registers (step { machine 0x100 [(0x100, 0x10000)] 0 0 false 0 with skip := true }) =
      some ⟨0, 0, false, 0x101, 0, false, true⟩ := by exact ⟨rfl, by decide⟩

/-! ### Witnesses: for each statement with hypotheses, a state and operands that meet them -/

/-- A machine at 0x100 that is about to run one word. -/
def running (w : Word) : State := machine 0x100 [(0x100, w)] 3 5 true 7

theorem witness_DecodeOfEncodeIsTheInstruction :
    (Instr.group1 { cla := true, cll := true } 0xF).wellFormed = true ∧
    (Instr.reverse { hlt := true } 0).wellFormed = true ∧ (Instr.group2 {} 0).wellFormed = true ∧
    (Instr.group3 { mq := .swp, eop := .sam } true 7).wellFormed = true := by decide

theorem witness_EncodeOfDecodeIsTheWord : ∃ i, decode 0x0000E365 = .ok i := ⟨_, rfl⟩

/-- The last accepted word below the gap, and the first one above it. -/
theorem witness_DecoderAcceptsExactlyTheDefinedWords :
    (∃ i, decode 0x0000FFFF = .ok i) ∧ (∃ i, decode 0x80000000 = .ok i) := ⟨⟨_, rfl⟩, ⟨_, rfl⟩⟩

theorem witness_ReservedWordIsRefused :
    (0x00010000 : Word).getLsbD 31 = false ∧ (0x00010000 : Word).extractLsb' 16 15 ≠ 0 ∧
    (0x7FFFFFFF : Word).getLsbD 31 = false ∧ (0x7FFFFFFF : Word).extractLsb' 16 15 ≠ 0 ∧
    (running 0x10000).run = true ∧ (running 0x10000).skip = false ∧
    (running 0x10000).readWord (running 0x10000).pc = 0x10000 := by decide

theorem witness_StepRunsTheDecodedInstruction :
    ((running 0xE200).run = true ∧ (running 0xE200).skip = false ∧
      ∃ i, decode ((running 0xE200).readWord (running 0xE200).pc) = .ok i) ∧
    (({ running 0xE200 with skip := true } : State).run = true ∧
      ({ running 0xE200 with skip := true } : State).skip = true) ∧
    ({ running 0xE200 with run := false } : State).run = false :=
  ⟨⟨rfl, rfl, _, rfl⟩, ⟨rfl, rfl⟩, rfl⟩

/-- The last word of memory, executed and skipped. -/
theorem witness_PcStaysWithinMemoryUnlessJump :
    (∃ t, step (machine 0xFFF [(0xFFF, 0xE200)] 3 5 true 7) = .next t) ∧
    (∀ i, decode ((machine 0xFFF [(0xFFF, 0xE200)] 3 5 true 7).readWord 0xFFF) = .ok i → isJump i = false) ∧
    (∃ t, step { machine 0xFFF [(0xFFF, 0xA000)] 3 5 true 7 with skip := true } = .next t) := by
  refine ⟨⟨_, rfl⟩, ?_, ⟨_, rfl⟩⟩
  intro i h
  have : i = .cla1 0 := by
    have e : decode ((machine 0xFFF [(0xFFF, 0xE200)] 3 5 true 7).readWord 0xFFF) = .ok (.cla1 0) := rfl
    rw [e] at h
    exact (Except.ok.inj h).symm
  rw [this]
  rfl

theorem witness_HltHaltsAndRestartResumes : ({ running 0xE802 with run := false } : State).run = false := rfl

theorem witness_OnlyHltStopsTheProcessor :
    (∃ t, step (running 0xE802) = .next t ∧ t.run = false) ∧
    (∃ t, step (running 0xE800) = .next t ∧ t.run = true) ∧
    (∃ t, step { running 0xE802 with skip := true } = .next t ∧ t.run = true) :=
  ⟨⟨_, rfl, rfl⟩, ⟨_, rfl, rfl⟩, ⟨_, rfl, rfl⟩⟩

/-- Each of the three stops is reached by some state, and a halted machine goes on. -/
theorem witness_StepStopsOnlyInThreeCases :
    step (running 0x10000) = .refused (.reservedWord 0x10000) ∧
    step { running 0xC345 with devices := [(0x34, 5)] } = .refused (.deviceUndescribed 0x34 5) ∧
    step { running 0xE841 with ac := 0, mq := 0 } = .fault .nmiNeverEnds ∧
    step { running 0xEB41 with mq := 0 } = .fault .nmiNeverEnds ∧
    completes (step { running 0x10000 with run := false }) := ⟨rfl, rfl, rfl, rfl, _, rfl⟩

/-- Two different states that carry the same. -/
theorem witness_ExplanationRegistersCarryNothing :
    running 0x1010 ≠ { running 0x1010 with ir := 1, y := 0x250, b := true, eop := 5, base := 0x800 } ∧
    (running 0x1010).carried =
      ({ running 0x1010 with ir := 1, y := 0x250, b := true, eop := 5, base := 0x800 } : State).carried := by decide

theorem witness_PageSelectorsAreInert : ∃ t, step (running 0x8820) = .next t := ⟨_, rfl⟩

theorem witness_EveryStepKeepsTheInvariant :
    (running 0x4820).inv = true ∧ ∃ t, step (running 0x4820) = .next t := ⟨by decide, _, rfl⟩

/-- The last existing address and the first one that does not exist. -/
theorem witness_ReadAfterWriteFindsTheWord :
    (running 1).mem.wf = true ∧ (0xFFF : Word).toNat ≤ (running 1).h.toNat ∧
    (running 1).h.toNat < (0x1000 : Word).toNat ∧ (0x1000 : Word) ≠ 0xFFF := by decide

theorem witness_PageProbeTellsExistence :
    (running 1).mem.wf = true ∧ (running 1).readWord 0xFFF = 0 ∧ (running 1).readWord 0x1000 = 0 ∧
    (1 : Word) ≠ 0 := by decide

/-- Within the page, and across the wrap from the last word to word 0. -/
theorem witness_StoredWordIsFetchedNext :
    ((running 0x4901).inv = true ∧ (running 0x4901).run = true ∧ (running 0x4901).skip = false ∧
      decode ((running 0x4901).readWord (running 0x4901).pc) = .ok (.dca false true 0x101) ∧
      directAddress true 0x101 (running 0x4901).pc =
        (nextAddress (running 0x4901).h (running 0x4901).pc).toNat) ∧
    (decode ((machine 0xFFF [(0xFFF, 0x4000)] 3 5 true 7).readWord 0xFFF) = .ok (.dca false false 0) ∧
      directAddress false 0 0xFFF = (nextAddress 0xFFF 0xFFF).toNat) :=
  ⟨⟨by decide, rfl, rfl, rfl, by decide⟩, rfl, by decide⟩

/-- Both ends of the auto-increment range and the addresses next to them. -/
theorem witness_EffectiveAddressIsFormedAsStated :
    (running 1).inv = true ∧
    inAutoIncrement (BitVec.ofNat 32 (directAddress false 0x200 (running 1).y)) = true ∧
    inAutoIncrement (BitVec.ofNat 32 (directAddress true 0x2FF (running 1).y)) = true ∧
    inAutoIncrement (BitVec.ofNat 32 (directAddress false 0x1FF (running 1).y)) = false ∧
    inAutoIncrement (BitVec.ofNat 32 (directAddress false 0x300 (running 1).y)) = false := by decide

/-- A machine in which word 0x10 points at the last word, word 0x11 past it, and word 0x12 at 0xFFFFFFFF. -/
def pointers : State :=
  machine 0x100 [(0x10, 0xFFF), (0x11, 0x1000), (0x12, 0xFFFFFFFF), (0xFFF, 0xFFFFFFFF)] 3 5 true 7

theorem witness_DcaDepositsAndClears :
    pointers.inv = true ∧
    (pointers.effectiveAddress true false 0x10).y.toNat ≤ pointers.h.toNat ∧
    pointers.h.toNat < (pointers.effectiveAddress true false 0x11).y.toNat := by decide

theorem witness_IszIncrementsAndSkipsOnZero :
    pointers.inv = true ∧
    (pointers.effectiveAddress true false 0x10).y.toNat ≤ pointers.h.toNat ∧
    (pointers.effectiveAddress true false 0x10).readWord (pointers.effectiveAddress true false 0x10).y = 0xFFFFFFFF ∧
    pointers.h.toNat < (pointers.effectiveAddress true false 0x11).y.toNat := by decide

theorem witness_JmsLinksAndEnters :
    pointers.inv = true ∧
    (pointers.effectiveAddress true false 0x10).y.toNat ≤ pointers.h.toNat ∧
    pointers.h.toNat < (pointers.effectiveAddress true false 0x12).y.toNat ∧
    (pointers.effectiveAddress true false 0x12).y + 1 = 0 := by decide

theorem witness_MriFamilyTouchesOnlyItsRegisters :
    isMri (.and true true 0x7FF) = true ∧ (∀ i p off, (Instr.and true true 0x7FF) ≠ .tad i p off) ∧
    (∀ i p off, (Instr.and true true 0x7FF) ≠ .isz i p off) ∧ isJump (.and true true 0x7FF) = false :=
  ⟨rfl, fun _ _ _ h => Instr.noConfusion h, fun _ _ _ h => Instr.noConfusion h, rfl⟩

/-- The state right after the JMS meets the premises on the state of the return. -/
theorem witness_JmpThroughTheLinkReturns :
    pointers.inv = true ∧ ¬ (0x200 ≤ (0x1FF : BitVec 11).toNat ∧ (0x1FF : BitVec 11).toNat ≤ 0x2FF) ∧
    ¬ (0x200 ≤ (0x300 : BitVec 11).toNat ∧ (0x300 : BitVec 11).toNat ≤ 0x2FF) ∧
    ∃ t, exec (.jms false false 0x1FF) pointers = .next t ∧ t.inv = true ∧ t.h = pointers.h ∧
      t.readWord ((0x1FF : BitVec 11).setWidth 32) = t.readWord ((0x1FF : BitVec 11).setWidth 32) :=
  ⟨by decide, by decide, by decide, _, rfl, by decide, rfl, rfl⟩

theorem witness_IotOfUnknownDeviceDoesNothing :
    ((0xFF, 0xF) : DeviceOp) ∉ State.reset.devices ∧
    ((0x34, 6) : DeviceOp) ∉ ({ State.reset with devices := [(0x34, 5)] } : State).devices := by decide

theorem witness_IotOfDefinedDeviceIsRefused :
    ((0x34, 5) : DeviceOp) ∈ ({ State.reset with devices := [(0x34, 5)] } : State).devices := by decide

theorem witness_ReversedTestsSkipOnTheOpposite : (running 0xE900).skip = false := rfl

/-- The three tests hold together only without CLA; with CLA and L = 0, only SZA holds. -/
theorem witness_Group2SkipsIfAnyOrNoneHolds :
    ({ running 0 with ac := 0x80000000 } : State).skip = false ∧
    ({ running 0 with ac := 0x80000000 } : State).ac.toInt < 0 ∧ (running 0).l = true ∧
    (running 0).ac ≠ 0 := by decide

theorem witness_Group3TakesItsPartsInOrder :
    (({ mq := .swp, eop := .dst } : Opr3).eop ≠ .nmi) ∧
    (∃ t, exec (.group3 { mq := .swp, eop := .dst } true 0) pointers = .next t) ∧
    (∃ t, exec (.group3 { mq := .swp, eop := .nmi } true 0) { pointers with mq := 0x40000000 } = .next t) :=
  ⟨by decide, ⟨_, rfl⟩, ⟨_, rfl⟩⟩

/-- The divisor one more than AC, and the largest one. -/
theorem witness_DviDividesTheDoubleWord :
    (machine 0x101 [(0x101, 4)] 3 5 true 7).ac.toNat <
      ((machine 0x101 [(0x101, 4)] 3 5 true 7).operandWord false).toNat ∧
    (machine 0x101 [(0x101, 0xFFFFFFFF)] 0xFFFFFFFE 5 true 7).ac.toNat <
      ((machine 0x101 [(0x101, 0xFFFFFFFF)] 0xFFFFFFFE 5 true 7).operandWord false).toNat := by decide

/-- A divisor of zero, and a divisor equal to AC. -/
theorem witness_DviOverflowSetsLink :
    (machine 0x101 [] 3 5 true 7).operandWord false = 0 ∧
    2 ^ 32 ≤ (machine 0x101 [(0x101, 3)] 3 5 true 7).double /
      ((machine 0x101 [(0x101, 3)] 3 5 true 7).operandWord false).toNat := by decide

/-- The smallest non-zero double word, and a normalised one that takes no shift. -/
theorem witness_NmiNormalises :
    ((machine 0x101 [] 0 1 true 7).ac ≠ 0 ∨ (machine 0x101 [] 0 1 true 7).mq ≠ 0) ∧
    ((machine 0x101 [] 0xC0000000 0 true 7).ac ≠ 0 ∨ (machine 0x101 [] 0xC0000000 0 true 7).mq ≠ 0) := by decide

theorem witness_NmiOfZeroIsStuck : State.reset.ac = 0 ∧ State.reset.mq = 0 := ⟨rfl, rfl⟩

/-- A double word at the last address, and one at 0xFFFFFFFF whose second word is word 0. -/
theorem witness_DstStoresTheDoubleWord :
    pointers.mem.wf = true ∧
    ((machine 0x101 [(0x101, 0xFFF)] 3 5 true 7).operandWord false).toNat ≤
      (machine 0x101 [(0x101, 0xFFF)] 3 5 true 7).h.toNat ∧
    ((machine 0x101 [(0x101, 0xFFFFFFFF)] 3 5 true 7).operandWord false + 1).toNat ≤
      (machine 0x101 [(0x101, 0xFFFFFFFF)] 3 5 true 7).h.toNat := by decide


end Sys2Proof.Tests
end

section
/-! PROOFS. IMM, load immediate (R126): the word as a number, the immediate bit by bit, and what the
instruction writes. -/

namespace Sys2Proof.Machine

/-! ### The immediate (R101) -/

/-- As a signed number the immediate is its 31-bit field. -/
theorem immediate_toInt (v : BitVec 31) : (immediate v).toInt = v.toInt :=
  BitVec.toInt_signExtend_of_le (by omega)

/-- Bit by bit: below bit 31 the field, at bit 31 the sign of the field. -/
theorem immediate_getLsbD (v : BitVec 31) (k : Nat) :
    (immediate v).getLsbD k = (decide (k < 32) && if k < 31 then v.getLsbD k else v.msb) :=
  BitVec.getLsbD_signExtend v

/-- `IR[30:0]` is kept. -/
theorem immediate_low (v : BitVec 31) : (immediate v).extractLsb' 0 31 = v := by
  apply BitVec.eq_of_getLsbD_eq
  intro k hk
  have hword : k < 32 := by omega
  rw [BitVec.getLsbD_extractLsb', Nat.zero_add, immediate_getLsbD]
  simp only [hk, hword, decide_true, Bool.true_and, if_true]

/-- `IR[31]` is `IR[30]`. -/
theorem immediate_top (v : BitVec 31) : (immediate v).getLsbD 31 = v.getLsbD 30 := by
  rw [immediate_getLsbD, BitVec.msb_eq_getLsbD_last]
  rfl

/-! ### The word and the instruction (R126) -/

theorem encode_imm_toNat (v : BitVec 31) : (encode (.imm v)).toNat = 2 ^ 31 + v.toNat := by
  have h : (encode (.imm v)).toNat = (1#1).toNat * 2 ^ 31 + v.toNat := toNat_append 1#1 v
  rw [h, show (1#1).toNat = 1 from rfl, Nat.one_mul]

/-- IMM always completes, and it writes AC and IR alone. -/
theorem exec_imm (v : BitVec 31) (s : State) :
    exec (.imm v) s = .next { s with ac := immediate v, ir := immediate v } := rfl

/-- Settles O27: the state after IMM holds the immediate in AC and IR, and the immediate is the signed
31-bit field with its top bit repeated. -/
theorem immLoadsTheSignedImmediate : Obligations.ImmLoadsTheSignedImmediate := by
  intro v s
  exact ⟨encode_imm_toNat v, _, exec_imm v s, immediate_toInt v, immediate_low v, immediate_top v, rfl, rfl⟩

end Sys2Proof.Machine
end

section
/-! PROOFS. AND (R146): the word of a memory-referencing instruction, and what AND writes. -/

namespace Sys2Proof.Machine

/-! ### The word of a memory-referencing instruction (R95) -/

/-- An offset alone is a word whose other fields are 0. -/
theorem setWidth_offset (off : BitVec 11) : off.setWidth 32 = 0#16 ++ 0#3 ++ 0#1 ++ 0#1 ++ off :=
  BitVec.setWidth_eq_append (x := off) (by decide)

/-- Concatenating the fields is OR-ing them, each in its own place: no two of them overlap. -/
theorem encodeMri_eq_mriWord (op : BitVec 3) (i p : Bool) (off : BitVec 11) :
    encodeMri op i p off = mriWord (0#16 ++ op ++ 0#13) i p off := by
  have hop : (0#16 ++ op ++ 0#13 : Word) = 0#16 ++ op ++ 0#1 ++ 0#1 ++ 0#11 := by
    revert op; decide
  have hi : (if i then 0x1000#32 else 0#32) = 0#16 ++ 0#3 ++ bit i ++ 0#1 ++ 0#11 := by
    cases i <;> rfl
  have hp : (if p then 0x0800#32 else 0#32) = 0#16 ++ 0#3 ++ 0#1 ++ bit p ++ 0#11 := by
    cases p <;> rfl
  rw [mriWord, hop, hi, hp, setWidth_offset]
  show (0#16 ++ op ++ bit i ++ bit p ++ off : BitVec (16 + 3 + 1 + 1 + 11)) =
    (0#16 ++ op ++ 0#1 ++ 0#1 ++ 0#11) ||| (0#16 ++ 0#3 ++ bit i ++ 0#1 ++ 0#11) |||
      (0#16 ++ 0#3 ++ 0#1 ++ bit p ++ 0#11) ||| (0#16 ++ 0#3 ++ 0#1 ++ 0#1 ++ off)
  simp only [BitVec.or_append, BitVec.or_zero, BitVec.zero_or]

theorem encode_and (i p : Bool) (off : BitVec 11) :
    encode (.and i p off) = mriWord 0x00000000 i p off :=
  encodeMri_eq_mriWord 0 i p off

/-! ### What AND writes (R146) -/

/-- AND always completes. It masks the AC the instruction found, which the address step leaves alone, with
the word at Y as the address step left memory, and after that step it writes AC only. -/
theorem exec_and (i p : Bool) (off : BitVec 11) (s : State) :
    exec (.and i p off) s =
      .next { s.effectiveAddress i p off with
        ac := s.ac &&& (s.effectiveAddress i p off).readWord (s.effectiveAddress i p off).y } := by
  have hexec : exec (.and i p off) s = execAnd i p off s := rfl
  rw [hexec, execAnd, State.effectiveAddress_ac]
  rfl

/-- Settles O19: the fields of the word do not overlap, so the encoder's concatenation is the word R95 gives,
and the address step keeps AC, so the masked value is the AC before the instruction. -/
theorem andMasksAc : Obligations.AndMasksAc := by
  intro i p off s
  exact ⟨encode_and i p off, exec_and i p off s⟩

end Sys2Proof.Machine
end

section
/-! PROOFS. SMA, SZA and SNL (R192 to R194): what the three tests say of AC and L, and that a test which holds
sets S. -/

namespace Sys2Proof.Machine

/-! ### The tests and the skip flag -/

/-- The sign bit of AC is 1 exactly where AC is negative as a signed number (R192). -/
theorem State.acMinus_eq (s : State) : s.acMinus = decide (s.ac.toInt < 0) :=
  calc s.ac.getLsbD 31
    _ = s.ac.msb := (BitVec.msb_eq_getLsbD_last s.ac).symm
    _ = decide (s.ac.toInt < 0) := BitVec.msb_eq_toInt

theorem State.acZero_eq (s : State) : s.acZero = decide (s.ac = 0) :=
  beq_eq_decide s.ac 0

/-- A test is OR-ed into S, and no other register is written. -/
theorem State.skipWhen_eq (s : State) (test : Bool) :
    s.skipWhen test = { s with skip := test || s.skip } := by
  cases test with
  | false => rfl
  | true => rfl

/-! ### The three skips (R192 to R194) -/

theorem exec_sma (s : State) (u : BitVec 5) :
    exec (.sma u) s = .next { s with skip := decide (s.ac.toInt < 0) || s.skip } := by
  have hexec : exec (.sma u) s = .next (s.skipWhen s.acMinus) := rfl
  rw [hexec, State.skipWhen_eq, State.acMinus_eq]

theorem exec_sza (s : State) (u : BitVec 5) :
    exec (.sza u) s = .next { s with skip := decide (s.ac = 0) || s.skip } := by
  have hexec : exec (.sza u) s = .next (s.skipWhen s.acZero) := rfl
  rw [hexec, State.skipWhen_eq, State.acZero_eq]

theorem exec_snl (s : State) (u : BitVec 5) :
    exec (.snl u) s = .next { s with skip := s.l || s.skip } := by
  have hexec : exec (.snl u) s = .next (s.skipWhen s.l) := rfl
  rw [hexec, State.skipWhen_eq]

/-- Settles O38: each of the three instructions ORs its one test into S, the test of SMA being the sign of AC
as a signed number, and the words are evaluated. -/
theorem smaSzaSnlSetTheSkip : Obligations.SmaSzaSnlSetTheSkip := by
  intro s u
  exact ⟨exec_sma s u, exec_sza s u, exec_snl s u, rfl, rfl, rfl⟩

end Sys2Proof.Machine
end

section
/-! PROOFS. The double register AC:MQ and the 65-bit register L:AC:MQ as numbers (R216, R236): their ranges, and
the carry of the word adder. -/

namespace Sys2Proof.Machine

theorem State.double_lt (s : State) : s.double < 2 ^ 64 := by
  have hac := s.ac.isLt
  have hmq := s.mq.isLt
  unfold State.double
  omega

theorem State.triple_lt (s : State) : s.triple < 2 ^ 65 := by
  have hl := Bool.toNat_le s.l
  have hdouble := s.double_lt
  unfold State.triple
  omega

/-- Without L, the 65-bit register is AC:MQ. -/
theorem State.triple_mod (s : State) : s.triple % 2 ^ 64 = s.double := by
  rw [State.triple, Nat.mul_add_mod_self_right, Nat.mod_eq_of_lt s.double_lt]

theorem State.double_eq_zero_iff (s : State) : s.double = 0 ↔ s.ac = 0 ∧ s.mq = 0 := by
  have hzero : (0 : Word).toNat = 0 := rfl
  rw [← BitVec.toNat_inj, ← BitVec.toNat_inj, hzero, State.double]
  omega

/-- Selecting the EOP operation moves neither AC nor MQ (R205). -/
@[simp] theorem State.selectEop_double (e : Eop) (s : State) : (s.selectEop e).double = s.double := rfl

/-- The carry is what the 32-bit sum leaves out (R11, R12). -/
theorem carryOut_add_sumWord (a b : Word) (carryIn : Bool) :
    (carryOut a b carryIn).toNat * 2 ^ 32 + (sumWord a b carryIn).toNat =
      a.toNat + b.toNat + carryIn.toNat := by
  have ha := a.isLt
  have hb := b.isLt
  have hc := Bool.toNat_le carryIn
  rw [carryOut, sumWord, BitVec.toNat_ofNat]
  by_cases h : 2 ^ 32 ≤ a.toNat + b.toNat + carryIn.toNat
  · rw [decide_eq_true h, Bool.toNat_true]
    omega
  · rw [decide_eq_false h, Bool.toNat_false]
    omega

/-- The carry of the low words going into the sum of the high words, the two sums and the last carry are the
65-bit sum of the double words (R236). -/
theorem carryOut_add_sumWord_double (ah al bh bl : Word) :
    (carryOut ah bh (carryOut al bl false)).toNat * 2 ^ 64 +
        ((sumWord ah bh (carryOut al bl false)).toNat * 2 ^ 32 + (sumWord al bl false).toNat) =
      ah.toNat * 2 ^ 32 + al.toNat + (bh.toNat * 2 ^ 32 + bl.toNat) := by
  have hlow := carryOut_add_sumWord al bl false
  have hhigh := carryOut_add_sumWord ah bh (carryOut al bl false)
  rw [Bool.toNat_false] at hlow
  linear_combination 2 ^ 32 * hhigh + hlow

end Sys2Proof.Machine
end

section
/-! PROOFS. SHL and LSR (R216, R217, R224, R225): one shift as arithmetic on the register it moves, and SC
repetitions of it as a power of two. -/

namespace Sys2Proof.Machine

/-! ### What the shifts leave unchanged -/

/-- `t` with the three registers a shift writes, AC, MQ and L, taken back from `s`. -/
def State.tripleFrom (s t : State) : State := { t with ac := s.ac, mq := s.mq, l := s.l }

theorem State.tripleFrom_shiftLeft1 (s : State) : s.tripleFrom s.shiftLeft1 = s := rfl

theorem State.tripleFrom_logicalRight1 (s : State) : s.tripleFrom s.logicalRight1 = s := rfl

/-- Where one shift writes AC, MQ and L alone, so do any number of shifts. -/
theorem State.tripleFrom_repeatN {f : State → State} (hf : ∀ s : State, s.tripleFrom (f s) = s) (n : Nat)
    (s : State) : s.tripleFrom (State.repeatN n f s) = s := by
  induction n generalizing s with
  | zero => rfl
  | succ n ih =>
    calc s.tripleFrom (State.repeatN n f (f s))
      _ = s.tripleFrom ((f s).tripleFrom (State.repeatN n f (f s))) := rfl
      _ = s.tripleFrom (f s) := by rw [ih (f s)]
      _ = s := hf s

/-- A shift instruction writes SC besides AC, MQ and L (R217). -/
theorem State.tripleFrom_shiftBySc {f : State → State} (hf : ∀ s : State, s.tripleFrom (f s) = s) (s : State) :
    s.tripleFrom (s.shiftBySc f) = s.setSc 0 :=
  congrArg (State.setSc · 0) (State.tripleFrom_repeatN hf s.sc.toNat s)

/-! ### SHL (R224) -/

/-- One left shift doubles L:AC:MQ, the bit moved out of L being lost. -/
theorem State.shiftLeft1_triple (s : State) : s.shiftLeft1.triple = s.triple * 2 % 2 ^ 65 := by
  have hac := s.ac.isLt
  have hmq := s.mq.isLt
  simp only [State.triple, State.double, shiftLeft1_l_toNat, shiftLeft1_ac_toNat, shiftLeft1_mq_toNat]
  omega

theorem State.repeatN_shiftLeft1_triple (n : Nat) (s : State) :
    (State.repeatN n State.shiftLeft1 s).triple = s.triple * 2 ^ n % 2 ^ 65 := by
  induction n generalizing s with
  | zero => rw [State.repeatN_zero, Nat.pow_zero, Nat.mul_one, Nat.mod_eq_of_lt s.triple_lt]
  | succ n ih =>
    rw [State.repeatN_succ, ih, State.shiftLeft1_triple, Nat.mod_mul_mod, Nat.mul_assoc, ← Nat.pow_succ']

theorem exec_shl (i : Bool) (u : BitVec 3) (s : State) :
    exec (.shl i u) s = .next ((s.selectEop .shl).shiftBySc State.shiftLeft1) := rfl

/-- Settles O50: each of the SC shifts doubles L:AC:MQ modulo 2^65, and none of them writes another register. -/
theorem shlMultipliesTheTriple : Obligations.ShlMultipliesTheTriple := by
  intro s i u
  have hvalue := State.repeatN_shiftLeft1_triple s.sc.toNat (s.selectEop .shl)
  have hrest := State.tripleFrom_shiftBySc State.tripleFrom_shiftLeft1 (s.selectEop .shl)
  exact ⟨rfl, _, exec_shl i u s, hvalue, hrest⟩

/-! ### LSR (R225) -/

/-- One right shift halves AC:MQ, the bit that enters becoming bit 63. -/
theorem State.shiftRight1_double (fill : Bool) (s : State) :
    (s.shiftRight1 fill).double = fill.toNat * 2 ^ 63 + s.double / 2 := by
  have hmq := s.mq.isLt
  simp only [State.double, shiftRight1_ac_toNat, shiftRight1_mq_toNat]
  omega

theorem State.logicalRight1_double (s : State) : s.logicalRight1.double = s.double / 2 := by
  rw [State.logicalRight1, State.shiftRight1_double, Bool.toNat_false, Nat.zero_mul, Nat.zero_add]

theorem State.repeatN_logicalRight1_double (n : Nat) (s : State) :
    (State.repeatN n State.logicalRight1 s).double = s.double / 2 ^ n := by
  induction n generalizing s with
  | zero => rw [State.repeatN_zero, Nat.pow_zero, Nat.div_one]
  | succ n ih =>
    rw [State.repeatN_succ, ih, State.logicalRight1_double, Nat.div_div_eq_div_mul, ← Nat.pow_succ']

/-- L holds what the last shift left in it, so it is kept where there was no shift. -/
theorem State.repeatN_logicalRight1_l (n : Nat) (s : State) :
    (State.repeatN n State.logicalRight1 s).l = if n = 0 then s.l else false := by
  cases n with
  | zero => rfl
  | succ n => rw [State.repeatN_succ_last, if_neg n.succ_ne_zero]; rfl

theorem exec_lsr (i : Bool) (u : BitVec 3) (s : State) :
    exec (.lsr i u) s = .next ((s.selectEop .lsr).shiftBySc State.logicalRight1) := rfl

/-- Settles O51: each of the SC shifts halves AC:MQ and clears L, and none of them writes another register. -/
theorem lsrDividesTheDouble : Obligations.LsrDividesTheDouble := by
  intro s i u
  have hvalue := State.repeatN_logicalRight1_double s.sc.toNat (s.selectEop .lsr)
  have hrest := State.tripleFrom_shiftBySc State.tripleFrom_logicalRight1 (s.selectEop .lsr)
  have hcount : s.sc.toNat = 0 ↔ s.sc = 0 := BitVec.toNat_inj (x := s.sc) (y := 0)
  have hlink := State.repeatN_logicalRight1_l s.sc.toNat (s.selectEop .lsr)
  simp only [hcount] at hlink
  exact ⟨rfl, _, exec_lsr i u s, hvalue, hlink, hrest⟩

end Sys2Proof.Machine
end

section
/-! PROOFS. DPIC, DPSZ and DCM (R232 to R234): increment, zero test and complement of the double word. -/

namespace Sys2Proof.Machine

/-! ### The double word operations as arithmetic -/

/-- The carry of the low word goes into the high word, and the carry of that one is L (R232). -/
theorem State.doubleIncrement_triple (s : State) : s.doubleIncrement.triple = s.double + 1 := by
  have hone : (0 : Word).toNat * 2 ^ 32 + (1 : Word).toNat = 1 := rfl
  calc s.doubleIncrement.triple
    _ = s.ac.toNat * 2 ^ 32 + s.mq.toNat + ((0 : Word).toNat * 2 ^ 32 + (1 : Word).toNat) :=
      carryOut_add_sumWord_double s.ac s.mq 0 1
    _ = s.double + 1 := by rw [hone, State.double]

theorem State.doubleIncrement_double (s : State) : s.doubleIncrement.double = (s.double + 1) % 2 ^ 64 := by
  rw [← State.triple_mod, State.doubleIncrement_triple]

theorem State.doubleZero_eq (s : State) : s.doubleZero = decide (s.double = 0) := by
  rw [State.doubleZero, beq_eq_decide, beq_eq_decide, ← Bool.decide_and]
  exact decide_eq_decide.mpr s.double_eq_zero_iff.symm

theorem State.doubleComplement_double (s : State) : s.doubleComplement.double = 2 ^ 64 - 1 - s.double := by
  have hac := s.ac.isLt
  have hmq := s.mq.isLt
  have hvalue : s.doubleComplement.double = (~~~s.ac).toNat * 2 ^ 32 + (~~~s.mq).toNat := rfl
  rw [hvalue, BitVec.toNat_not, BitVec.toNat_not, State.double]
  omega

/-! ### The instructions -/

theorem exec_dpic (i : Bool) (u : BitVec 3) (s : State) :
    exec (.dpic i u) s = .next (s.selectEop .dpic).doubleIncrement := rfl

theorem exec_dcm (i : Bool) (u : BitVec 3) (s : State) :
    exec (.dcm i u) s = .next (s.selectEop .dcm).doubleComplement := rfl

theorem execAll_dcm_dpic (i : Bool) (u : BitVec 3) (s : State) :
    execAll [.dcm i u, .dpic i u] s =
      .next ((s.selectEop .dcm).doubleComplement.selectEop .dpic).doubleIncrement := rfl

/-- DPSZ always completes, and it writes S and EOP alone. -/
theorem exec_dpsz (i : Bool) (u : BitVec 3) (s : State) :
    exec (.dpsz i u) s = .next { s with skip := decide (s.double = 0), eop := 0xD } := by
  have hexec : exec (.dpsz i u) s = .next { s with skip := s.doubleZero, eop := 0xD } := rfl
  rw [hexec, State.doubleZero_eq]

/-- Settles O55: L:AC:MQ after DPIC is the sum in full, and the test of DPSZ is that of the double word. -/
theorem dpicAndDpszOnTheDoubleWord : Obligations.DpicAndDpszOnTheDoubleWord := by
  intro s i u
  have hvalue := (s.selectEop .dpic).doubleIncrement_triple
  exact ⟨rfl, rfl, ⟨_, exec_dpic i u s, hvalue, rfl⟩, exec_dpsz i u s⟩

/-- Settles O56: complementing both words takes AC:MQ from 2^64 - 1, and adding 1 to that takes it from 2^64. -/
theorem dcmComplementsAndWithDpicNegates : Obligations.DcmComplementsAndWithDpicNegates := by
  intro s i u
  have hcomplement : (s.selectEop .dcm).doubleComplement.double = 2 ^ 64 - 1 - s.double := by
    rw [State.doubleComplement_double, State.selectEop_double]
  have hdouble := s.double_lt
  have hnegation :=
    calc ((s.selectEop .dcm).doubleComplement.selectEop .dpic).doubleIncrement.double
      _ = (2 ^ 64 - 1 - s.double + 1) % 2 ^ 64 := by
        rw [State.doubleIncrement_double, State.selectEop_double, hcomplement]
      _ = (2 ^ 64 - s.double) % 2 ^ 64 := by congr 1; omega
  exact ⟨rfl, ⟨_, exec_dcm i u s, hcomplement, rfl⟩, _, execAll_dcm_dpic i u s, hnegation⟩

end Sys2Proof.Machine
end

section
/-! PROOFS. SCA (R228): the shift count into AC, alone and after CLA in the same word. -/

namespace Sys2Proof.Machine

/-- SCA always completes, and it writes AC and EOP alone. -/
theorem exec_sca (i : Bool) (u : BitVec 3) (s : State) :
    exec (.sca i u) s = .next { s with ac := s.ac ||| BitVec.ofNat 32 s.sc.toNat, eop := 0x8 } := by
  have hexec : exec (.sca i u) s = .next { s with ac := s.ac ||| s.sc.setWidth 32, eop := 0x8 } := rfl
  rw [hexec, BitVec.ofNat_toNat]

/-- In one word with CLA the clear comes first, so SCA acts on the state with AC = 0 (R205). -/
theorem exec_cla_sca (i : Bool) (u : BitVec 3) (s : State) :
    exec (.group3 { cla := true, eop := .sca } i u) s = exec (.sca i u) s.clearAc := rfl

/-- Settles O44: the zero-extended count is the count as a word, and OR-ing it into a cleared AC loads it. -/
theorem scaOrsTheShiftCount : Obligations.ScaOrsTheShiftCount := by
  intro s i u
  have hload : exec (.sca i u) s.clearAc =
      .next { s with ac := BitVec.ofNat 32 s.sc.toNat, eop := 0x8 } := by
    rw [exec_sca]
    exact congrArg (fun v => Host.Outcome.next { s with ac := v, eop := 0x8 }) BitVec.zero_or
  exact ⟨rfl, exec_sca i u s, rfl, (exec_cla_sca i u s).trans hload⟩

end Sys2Proof.Machine
end

section
/-! PROOFS. The encoding (R90 to R105): an operate word is rebuilt from the fields the decoder reads, and the
fields of an encoded word are the operands of its instruction. -/

namespace Sys2Proof

open Machine

/-! ### Single bits of a word -/

theorem bit_getLsbD (w : Word) (k : Nat) : bit (w.getLsbD k) = w.extractLsb' k 1 := by
  apply BitVec.eq_of_getLsbD_eq
  intro j hj
  obtain rfl : j = 0 := by omega
  simp [bit]

/-- A field continued by the bit below it is the field one bit longer. -/
theorem extract_append_bit (w : Word) (k n : Nat) :
    w.extractLsb' (k + 1) n ++ bit (w.getLsbD k) = w.extractLsb' k (n + 1) := by
  rw [bit_getLsbD, BitVec.extractLsb'_append_extractLsb'_eq_extractLsb' rfl]

theorem bit_getLsbD_zero (b : Bool) : (bit b).getLsbD 0 = b := by cases b <;> rfl

theorem getLsbD_append_bit_zero {n : Nat} (x : BitVec n) (b : Bool) : (x ++ bit b).getLsbD 0 = b := by
  rw [BitVec.getLsbD_append, if_pos Nat.zero_lt_one, bit_getLsbD_zero]

theorem getLsbD_append_bit_succ {n : Nat} (x : BitVec n) (b : Bool) (k : Nat) :
    (x ++ bit b).getLsbD (k + 1) = x.getLsbD k := by
  rw [BitVec.getLsbD_append, if_neg (by omega), Nat.add_sub_cancel]

/-- A vector is the sequence of its bits, most significant first. -/
theorem bits_append_3 (u : BitVec 3) : bit (u.getLsbD 2) ++ bit (u.getLsbD 1) ++ bit (u.getLsbD 0) = u := by
  revert u; decide

theorem bits_append_4 (u : BitVec 4) :
    bit (u.getLsbD 3) ++ bit (u.getLsbD 2) ++ bit (u.getLsbD 1) ++ bit (u.getLsbD 0) = u := by
  revert u; decide

theorem bits_append_5 (u : BitVec 5) :
    bit (u.getLsbD 4) ++ bit (u.getLsbD 3) ++ bit (u.getLsbD 2) ++ bit (u.getLsbD 1) ++ bit (u.getLsbD 0) = u := by
  revert u; decide

/-! ### The selectors of the tables of R97 and R99 -/

@[simp] theorem rotSelOf_bits (r : RotSel) : rotSelOf r.rr r.rl r.rt = r := by cases r <;> rfl

@[simp] theorem rr_rotSelOf (a b c : Bool) : (rotSelOf a b c).rr = a := by
  cases a <;> cases b <;> cases c <;> rfl

@[simp] theorem rl_rotSelOf (a b c : Bool) : (rotSelOf a b c).rl = b := by
  cases a <;> cases b <;> cases c <;> rfl

@[simp] theorem rt_rotSelOf (a b c : Bool) : (rotSelOf a b c).rt = c := by
  cases a <;> cases b <;> cases c <;> rfl

@[simp] theorem mqSelOf_bits (m : MqSel) : mqSelOf m.bit10 m.bit8 = m := by cases m <;> rfl

@[simp] theorem bit10_mqSelOf (a b : Bool) : (mqSelOf a b).bit10 = a := by cases a <;> cases b <;> rfl

@[simp] theorem bit8_mqSelOf (a b : Bool) : (mqSelOf a b).bit8 = b := by cases a <;> cases b <;> rfl

@[simp] theorem eopOf_code (e : Eop) :
    eopOf (e.code.getLsbD 3) (e.code.getLsbD 2) (e.code.getLsbD 1) (e.code.getLsbD 0) = e := by
  cases e <;> rfl

theorem code_eopOf (a b c d : Bool) : (eopOf a b c d).code = bit a ++ bit b ++ bit c ++ bit d := by
  cases a <;> cases b <;> cases c <;> cases d <;> rfl

/-! ### What the decoder does with a word (R91, R93, R102) -/

/-- The three classes of words: IMM, the words below 2^16, and the reserved words between them (R104). -/
theorem decode_cases (w : Word) :
    (w.getLsbD 31 = true ∧ 2 ^ 31 ≤ w.toNat ∧ decode w = .ok (.imm (w.extractLsb' 0 31))) ∨
    (w.extractLsb' 16 16 = 0 ∧ w.toNat < 2 ^ 16 ∧ decode w = .ok (decodeByOp w)) ∨
    (2 ^ 16 ≤ w.toNat ∧ w.toNat < 2 ^ 31 ∧ decode w = .error (.reserved w)) := by
  have htop := getLsbD_31_iff w
  have hhigh : w.extractLsb' 16 15 = 0 ↔ w.toNat / 2 ^ 16 % 2 ^ 15 = 0 := by
    rw [← BitVec.toNat_inj, BitVec.extractLsb'_toNat, Nat.shiftRight_eq_div_pow]
    rfl
  have hw := w.isLt
  cases h31 : w.getLsbD 31 with
  | true => exact .inl ⟨rfl, htop.mp h31, by rw [decode, if_pos h31]⟩
  | false =>
    have hlt : w.toNat < 2 ^ 31 := by
      have : ¬ 2 ^ 31 ≤ w.toNat := fun h => Bool.false_ne_true (h31.symm.trans (htop.mpr h))
      omega
    have hdecode : decode w = if w.extractLsb' 16 15 = 0 then .ok (decodeByOp w) else .error (.reserved w) := by
      rw [decode, h31, if_neg Bool.false_ne_true]
    by_cases h : w.extractLsb' 16 15 = 0
    · have hlow : w.toNat < 2 ^ 16 := by have := hhigh.mp h; omega
      refine .inr (.inl ⟨?_, hlow, by rw [hdecode, if_pos h]⟩)
      rw [← BitVec.toNat_inj, BitVec.extractLsb'_toNat, Nat.shiftRight_eq_div_pow, Nat.div_eq_of_lt hlow]
      rfl
    · have hle : 2 ^ 16 ≤ w.toNat := by
        have := mt hhigh.mpr h
        omega
      exact .inr (.inr ⟨hle, hlt, by rw [hdecode, if_neg h]⟩)

/-- Settles O3: of the three classes of words only the reserved one is refused. -/
theorem decoderAcceptsExactlyTheDefinedWords : Obligations.DecoderAcceptsExactlyTheDefinedWords := by
  intro w
  rcases decode_cases w with ⟨-, hle, h⟩ | ⟨-, hlt, h⟩ | ⟨hle, hlt, h⟩
  · exact iff_of_true ⟨_, h⟩ (.inl hle)
  · exact iff_of_true ⟨_, h⟩ (.inr hlt)
  · refine iff_of_false ?_ (by omega)
    rintro ⟨i, hi⟩
    cases h.symm.trans hi

/-! ### The formats of the operate groups (R97 to R99) -/

@[simp] theorem opr1Of_encodeGroup1 (f : Opr1) (u : BitVec 4) : opr1Of (encodeGroup1 f u) = f := by
  simp only [opr1Of, encodeGroup1, getLsbD_append_bit_zero, getLsbD_append_bit_succ, rotSelOf_bits]

@[simp] theorem unassigned1_encodeGroup1 (f : Opr1) (u : BitVec 4) : unassigned1 (encodeGroup1 f u) = u := by
  have hgap : 0#1 = bit false := rfl
  simp only [unassigned1, encodeGroup1, hgap, getLsbD_append_bit_zero, getLsbD_append_bit_succ, bits_append_4]

@[simp] theorem opr2Of_encodeGroup2 (r : Bool) (f : Opr2) (u : BitVec 5) : opr2Of (encodeGroup2 r f u) = f := by
  have hlast : 0#1 = bit false := rfl
  simp only [opr2Of, encodeGroup2, hlast, getLsbD_append_bit_zero, getLsbD_append_bit_succ]

theorem encodeGroup2_reverse (r : Bool) (f : Opr2) (u : BitVec 5) : (encodeGroup2 r f u).getLsbD 4 = r := by
  have hlast : 0#1 = bit false := rfl
  simp only [encodeGroup2, hlast, getLsbD_append_bit_zero, getLsbD_append_bit_succ]

@[simp] theorem unassigned2_encodeGroup2 (r : Bool) (f : Opr2) (u : BitVec 5) :
    unassigned2 (encodeGroup2 r f u) = u := by
  have hlast : 0#1 = bit false := rfl
  have hgroup : 1#1 = bit true := rfl
  simp only [unassigned2, encodeGroup2, hlast, hgroup, getLsbD_append_bit_zero, getLsbD_append_bit_succ,
    bits_append_5]

/-- A field of several bits may be appended bit by bit. -/
theorem append_append_bit {n m : Nat} (x : BitVec n) (y : BitVec m) (b : Bool) :
    x ++ (y ++ bit b) = (x ++ y ++ bit b : BitVec (n + m + 1)) := by
  apply BitVec.eq_of_toNat_eq
  simp only [toNat_append, Nat.pow_succ]
  ring

/-- Format OPR3 with the EOP value and the unassigned bits written bit by bit. -/
theorem encodeGroup3_eq_bits (f : Opr3) (i : Bool) (u : BitVec 3) :
    encodeGroup3 f i u =
      0#16 ++ 7#3 ++ bit i ++ bit true ++ bit f.mq.bit10 ++ bit f.cla ++ bit f.mq.bit8
        ++ bit (f.eop.code.getLsbD 3) ++ bit (f.eop.code.getLsbD 2) ++ bit (f.eop.code.getLsbD 1)
        ++ bit (f.eop.code.getLsbD 0) ++ bit (u.getLsbD 2) ++ bit (u.getLsbD 1) ++ bit (u.getLsbD 0)
        ++ bit true := by
  have hu := append_append_bit
    (0#16 ++ 7#3 ++ bit i ++ bit true ++ bit f.mq.bit10 ++ bit f.cla ++ bit f.mq.bit8 ++ f.eop.code)
    (bit (u.getLsbD 2) ++ bit (u.getLsbD 1)) (u.getLsbD 0)
  rw [bits_append_3, append_append_bit] at hu
  have he := append_append_bit
    (0#16 ++ 7#3 ++ bit i ++ bit true ++ bit f.mq.bit10 ++ bit f.cla ++ bit f.mq.bit8)
    (bit (f.eop.code.getLsbD 3) ++ bit (f.eop.code.getLsbD 2) ++ bit (f.eop.code.getLsbD 1))
    (f.eop.code.getLsbD 0)
  rw [bits_append_4, append_append_bit, append_append_bit] at he
  rw [← he, ← hu]
  rfl

@[simp] theorem opr3Of_encodeGroup3 (f : Opr3) (i : Bool) (u : BitVec 3) : opr3Of (encodeGroup3 f i u) = f := by
  simp only [opr3Of, encodeGroup3_eq_bits, getLsbD_append_bit_zero, getLsbD_append_bit_succ, mqSelOf_bits,
    eopOf_code]

@[simp] theorem unassigned3_encodeGroup3 (f : Opr3) (i : Bool) (u : BitVec 3) :
    unassigned3 (encodeGroup3 f i u) = u := by
  simp only [unassigned3, encodeGroup3_eq_bits, getLsbD_append_bit_zero, getLsbD_append_bit_succ, bits_append_3]

theorem encodeGroup3_indirect (f : Opr3) (i : Bool) (u : BitVec 3) : (encodeGroup3 f i u).getLsbD 12 = i := by
  simp only [encodeGroup3_eq_bits, getLsbD_append_bit_zero, getLsbD_append_bit_succ]

/-! ### The bits that choose the group (R102) -/

theorem encodeGroup1_group (f : Opr1) (u : BitVec 4) : (encodeGroup1 f u).getLsbD 11 = false := by
  have hgap : 0#1 = bit false := rfl
  simp only [encodeGroup1, hgap, getLsbD_append_bit_zero, getLsbD_append_bit_succ]

theorem encodeGroup2_group (r : Bool) (f : Opr2) (u : BitVec 5) :
    (encodeGroup2 r f u).getLsbD 11 = true ∧ (encodeGroup2 r f u).getLsbD 0 = false := by
  have hlast : 0#1 = bit false := rfl
  have hgroup : 1#1 = bit true := rfl
  simp only [encodeGroup2, hlast, hgroup, getLsbD_append_bit_zero, getLsbD_append_bit_succ, and_self]

theorem encodeGroup3_group (f : Opr3) (i : Bool) (u : BitVec 3) :
    (encodeGroup3 f i u).getLsbD 11 = true ∧ (encodeGroup3 f i u).getLsbD 0 = true := by
  simp only [encodeGroup3_eq_bits, getLsbD_append_bit_zero, getLsbD_append_bit_succ, and_self]

/-! ### The header of a word: everything above the indirect bit -/

/-- IR[31:13] of a word with IR[31:16] = 0 and operation field `op` (R92). -/
def header (op : BitVec 3) : BitVec 19 := 0#16 ++ op

theorem extract_append_bit_succ {n : Nat} (x : BitVec n) (b : Bool) (k len : Nat) :
    (x ++ bit b).extractLsb' (k + 1) len = x.extractLsb' k len :=
  BitVec.extractLsb'_append_eq_of_le (by omega)

theorem header_encodeMri (op : BitVec 3) (i p : Bool) (off : BitVec 11) :
    (encodeMri op i p off).extractLsb' 13 19 = header op := by
  rw [encodeMri, BitVec.extractLsb'_append_eq_of_le (by omega)]
  simp only [Nat.reduceSub, extract_append_bit_succ]
  exact BitVec.extractLsb'_eq_self

theorem header_encodeGroup1 (f : Opr1) (u : BitVec 4) : (encodeGroup1 f u).extractLsb' 13 19 = header 7 := by
  have hgap : 0#1 = bit false := rfl
  simp only [encodeGroup1, hgap, extract_append_bit_succ]
  exact BitVec.extractLsb'_eq_self

theorem header_encodeGroup2 (r : Bool) (f : Opr2) (u : BitVec 5) :
    (encodeGroup2 r f u).extractLsb' 13 19 = header 7 := by
  have hlast : 0#1 = bit false := rfl
  have hgroup : 1#1 = bit true := rfl
  simp only [encodeGroup2, hlast, hgroup, extract_append_bit_succ]
  exact BitVec.extractLsb'_eq_self

theorem header_encodeGroup3 (f : Opr3) (i : Bool) (u : BitVec 3) :
    (encodeGroup3 f i u).extractLsb' 13 19 = header 7 := by
  simp only [encodeGroup3_eq_bits, extract_append_bit_succ]
  exact BitVec.extractLsb'_eq_self

theorem header_iot (x : Bool) (d : BitVec 8) (dop : BitVec 4) :
    (encode (.iot x d dop)).extractLsb' 13 19 = header 6 := by
  rw [encode, BitVec.extractLsb'_append_eq_of_le (by omega), BitVec.extractLsb'_append_eq_of_le (by omega)]
  simp only [Nat.reduceSub, extract_append_bit_succ]
  exact BitVec.extractLsb'_eq_self

/-- The header is IR[31:16] followed by the three bits of OP. -/
theorem header_eq_bits (w : Word) :
    w.extractLsb' 13 19 = w.extractLsb' 16 16 ++ bit (w.getLsbD 15) ++ bit (w.getLsbD 14) ++ bit (w.getLsbD 13) := by
  rw [extract_append_bit, extract_append_bit, extract_append_bit]

/-- A word with header `op` is below 2^16 and its OP field is `op`. -/
theorem header_fields {w : Word} {op : BitVec 3} (h : w.extractLsb' 13 19 = header op) :
    w.toNat < 2 ^ 16 ∧ w.extractLsb' 13 3 = op := by
  have hvalue : w.toNat / 2 ^ 13 % 2 ^ 19 = op.toNat := by
    rw [← Nat.shiftRight_eq_div_pow, ← BitVec.extractLsb'_toNat, h, header, toNat_append]
    exact Nat.zero_add _
  have hop := op.isLt
  have hw := w.isLt
  refine ⟨by omega, ?_⟩
  rw [← BitVec.toNat_inj, BitVec.extractLsb'_toNat, Nat.shiftRight_eq_div_pow]
  omega

theorem header_bit {w : Word} {op : BitVec 3} (h : w.extractLsb' 13 19 = header op) (k : Nat) (hk : k < 3) :
    w.getLsbD (13 + k) = op.getLsbD k := by
  rw [← (header_fields h).2, BitVec.getLsbD_extractLsb', decide_eq_true hk, Bool.true_and]

theorem header_bit_13 {w : Word} {op : BitVec 3} (h : w.extractLsb' 13 19 = header op) :
    w.getLsbD 13 = op.getLsbD 0 := header_bit h 0 (by decide)

theorem header_bit_14 {w : Word} {op : BitVec 3} (h : w.extractLsb' 13 19 = header op) :
    w.getLsbD 14 = op.getLsbD 1 := header_bit h 1 (by decide)

theorem header_bit_15 {w : Word} {op : BitVec 3} (h : w.extractLsb' 13 19 = header op) :
    w.getLsbD 15 = op.getLsbD 2 := header_bit h 2 (by decide)

theorem decode_of_header {w : Word} {op : BitVec 3} (h : w.extractLsb' 13 19 = header op) :
    decode w = .ok (decodeByOp w) := by
  have hlt := (header_fields h).1
  rcases decode_cases w with ⟨-, hle, -⟩ | ⟨-, -, hd⟩ | ⟨hle, -, -⟩
  · omega
  · exact hd
  · omega

theorem decode_operate {w : Word} (h : w.extractLsb' 13 19 = header 7) : decode w = .ok (decodeOperate w) := by
  rw [decode_of_header h, decodeByOp, header_bit_15 h, header_bit_14 h, header_bit_13 h]
  rfl

/-! ### What an accepted word decodes to -/

/-- The instruction of an accepted word, by its fields; an operate word has the name of its set (R95 to R99). -/
inductive DecodesTo (w : Word) : Instr → Prop
  | imm (top : w.getLsbD 31 = true) : DecodesTo w (.imm (w.extractLsb' 0 31))
  | and (head : w.extractLsb' 13 19 = header 0) :
      DecodesTo w (.and (w.getLsbD 12) (w.getLsbD 11) (w.extractLsb' 0 11))
  | tad (head : w.extractLsb' 13 19 = header 1) :
      DecodesTo w (.tad (w.getLsbD 12) (w.getLsbD 11) (w.extractLsb' 0 11))
  | dca (head : w.extractLsb' 13 19 = header 2) :
      DecodesTo w (.dca (w.getLsbD 12) (w.getLsbD 11) (w.extractLsb' 0 11))
  | isz (head : w.extractLsb' 13 19 = header 3) :
      DecodesTo w (.isz (w.getLsbD 12) (w.getLsbD 11) (w.extractLsb' 0 11))
  | jms (head : w.extractLsb' 13 19 = header 4) :
      DecodesTo w (.jms (w.getLsbD 12) (w.getLsbD 11) (w.extractLsb' 0 11))
  | jmp (head : w.extractLsb' 13 19 = header 5) :
      DecodesTo w (.jmp (w.getLsbD 12) (w.getLsbD 11) (w.extractLsb' 0 11))
  | iot (head : w.extractLsb' 13 19 = header 6) :
      DecodesTo w (.iot (w.getLsbD 12) (w.extractLsb' 4 8) (w.extractLsb' 0 4))
  | group1 (head : w.extractLsb' 13 19 = header 7) (b11 : w.getLsbD 11 = false) :
      DecodesTo w (nameGroup1 (opr1Of w) (unassigned1 w))
  | group2 (head : w.extractLsb' 13 19 = header 7) (b11 : w.getLsbD 11 = true) (b0 : w.getLsbD 0 = false) :
      DecodesTo w (nameGroup2 (w.getLsbD 4) (opr2Of w) (unassigned2 w))
  | group3 (head : w.extractLsb' 13 19 = header 7) (b11 : w.getLsbD 11 = true) (b0 : w.getLsbD 0 = true) :
      DecodesTo w (nameGroup3 (opr3Of w) (w.getLsbD 12) (unassigned3 w))

theorem decodesTo_decodeOperate {w : Word} (head : w.extractLsb' 13 19 = header 7) :
    DecodesTo w (decodeOperate w) := by
  unfold decodeOperate
  split
  · next b11 => exact .group1 head b11
  · next b11 =>
    split
    · next b0 => exact .group2 head (by simpa using b11) b0
    · next b0 => exact .group3 head (by simpa using b11) (by simpa using b0)

theorem decodesTo_decodeByOp {w : Word} (high : w.extractLsb' 16 16 = 0) : DecodesTo w (decodeByOp w) := by
  have head := header_eq_bits w
  unfold decodeByOp
  split <;> rename_i h15 h14 h13 <;> rw [high, h15, h14, h13] at head
  · exact .and head
  · exact .tad head
  · exact .dca head
  · exact .isz head
  · exact .jms head
  · exact .jmp head
  · exact .iot head
  · exact decodesTo_decodeOperate head

/-- The decoder, said once for every accepted word. -/
theorem decode_ok_iff (w : Word) (i : Instr) : decode w = .ok i ↔ DecodesTo w i := by
  constructor
  · intro hi
    rcases decode_cases w with ⟨top, -, h⟩ | ⟨high, -, h⟩ | ⟨-, -, h⟩
    · cases h.symm.trans hi
      exact .imm top
    · cases h.symm.trans hi
      exact decodesTo_decodeByOp high
    · cases h.symm.trans hi
  · intro h
    cases h with
    | imm top => rw [decode, if_pos top]
    | and head | tad head | dca head | isz head | jms head | jmp head | iot head =>
      rw [decode_of_header head, decodeByOp, header_bit_15 head, header_bit_14 head, header_bit_13 head]
      rfl
    | group1 head b11 =>
      rw [decode_operate head, decodeOperate, if_pos b11]
    | group2 head b11 b0 =>
      rw [decode_operate head, decodeOperate, if_neg (by rw [b11]; decide), if_pos b0]
    | group3 head b11 b0 =>
      rw [decode_operate head, decodeOperate, if_neg (by rw [b11]; decide), if_neg (by rw [b0]; decide)]

/-! ### Encoding the fields of a word -/

theorem encodeMri_fields {w : Word} {op : BitVec 3} (head : w.extractLsb' 13 19 = header op) :
    encodeMri op (w.getLsbD 12) (w.getLsbD 11) (w.extractLsb' 0 11) = w := by
  have hhead : 0#16 ++ op = w.extractLsb' 13 19 := head.symm
  rw [encodeMri, hhead, extract_append_bit, extract_append_bit]
  exact (BitVec.extractLsb'_append_extractLsb'_eq_extractLsb' rfl).trans BitVec.extractLsb'_eq_self

theorem encode_iot_fields {w : Word} (head : w.extractLsb' 13 19 = header 6) :
    encode (.iot (w.getLsbD 12) (w.extractLsb' 4 8) (w.extractLsb' 0 4)) = w := by
  have hhead : 0#16 ++ 6#3 = w.extractLsb' 13 19 := head.symm
  have hdevice : w.extractLsb' 12 20 ++ w.extractLsb' 4 8 = w.extractLsb' 4 28 :=
    BitVec.extractLsb'_append_extractLsb'_eq_extractLsb' rfl
  rw [encode, hhead, extract_append_bit, hdevice]
  exact (BitVec.extractLsb'_append_extractLsb'_eq_extractLsb' rfl).trans BitVec.extractLsb'_eq_self

theorem encode_imm_fields {w : Word} (top : w.getLsbD 31 = true) : encode (.imm (w.extractLsb' 0 31)) = w := by
  have htop : 1#1 = w.extractLsb' 31 1 := by rw [← bit_getLsbD, top]; rfl
  rw [encode, htop]
  exact (BitVec.extractLsb'_append_extractLsb'_eq_extractLsb' rfl).trans BitVec.extractLsb'_eq_self

theorem encodeGroup1_fields {w : Word} (head : w.extractLsb' 13 19 = header 7) (b11 : w.getLsbD 11 = false) :
    encodeGroup1 (opr1Of w) (unassigned1 w) = w := by
  have hhead : 0#16 ++ 7#3 = w.extractLsb' 13 19 := head.symm
  have hgap : 0#1 = bit (w.getLsbD 11) := by rw [b11]; rfl
  simp only [encodeGroup1, opr1Of, unassigned1, hhead, hgap, rr_rotSelOf, rl_rotSelOf, rt_rotSelOf,
    getLsbD_append_bit_zero, getLsbD_append_bit_succ, bit_getLsbD_zero, extract_append_bit]
  exact BitVec.extractLsb'_eq_self

theorem encodeGroup2_fields {w : Word} (head : w.extractLsb' 13 19 = header 7) (b11 : w.getLsbD 11 = true)
    (b0 : w.getLsbD 0 = false) : encodeGroup2 (w.getLsbD 4) (opr2Of w) (unassigned2 w) = w := by
  have hhead : 0#16 ++ 7#3 = w.extractLsb' 13 19 := head.symm
  have hgroup : 1#1 = bit (w.getLsbD 11) := by rw [b11]; rfl
  have hlast : 0#1 = bit (w.getLsbD 0) := by rw [b0]; rfl
  simp only [encodeGroup2, opr2Of, unassigned2, hhead, hgroup, hlast,
    getLsbD_append_bit_zero, getLsbD_append_bit_succ, bit_getLsbD_zero, extract_append_bit]
  exact BitVec.extractLsb'_eq_self

theorem encodeGroup3_fields {w : Word} (head : w.extractLsb' 13 19 = header 7) (b11 : w.getLsbD 11 = true)
    (b0 : w.getLsbD 0 = true) : encodeGroup3 (opr3Of w) (w.getLsbD 12) (unassigned3 w) = w := by
  have hgroup : 0#16 ++ 7#3 ++ bit (w.getLsbD 12) ++ 1#1 = w.extractLsb' 11 21 := by
    have hhead : 0#16 ++ 7#3 = w.extractLsb' 13 19 := head.symm
    have hbit : 1#1 = bit (w.getLsbD 11) := by rw [b11]; rfl
    rw [hhead, hbit, extract_append_bit, extract_append_bit]
  have hlast : 1#1 = bit (w.getLsbD 0) := by rw [b0]; rfl
  rw [encodeGroup3, hgroup, hlast]
  simp only [opr3Of, unassigned3, bit10_mqSelOf, bit8_mqSelOf, code_eopOf, append_append_bit, extract_append_bit]
  exact BitVec.extractLsb'_eq_self

/-! ### The names of the sets (R103, log entry 7) -/

theorem encode_nameGroup1 (f : Opr1) (u : BitVec 4) : encode (nameGroup1 f u) = encodeGroup1 f u := by
  unfold nameGroup1
  split
  · split
    · next hu => rw [hu]; rfl
    · rfl
  all_goals rfl

theorem encode_nameGroup2 (r : Bool) (f : Opr2) (u : BitVec 5) :
    encode (nameGroup2 r f u) = encodeGroup2 r f u := by
  unfold nameGroup2
  split <;> rfl

theorem encode_nameGroup3 (f : Opr3) (i : Bool) (u : BitVec 3) :
    encode (nameGroup3 f i u) = encodeGroup3 f i u := by
  unfold nameGroup3
  split <;> rfl

theorem wellFormed_nameGroup1_empty (u : BitVec 4) : (nameGroup1 {} u).wellFormed = true := by
  revert u; decide

/-- The name of every set stands for a word, checked set by set. -/
theorem wellFormed_nameGroup1 (f : Opr1) (u : BitVec 4) : (nameGroup1 f u).wellFormed = true := by
  obtain ⟨cla, cll, cma, cml, iac, rot⟩ := f
  cases rot <;> cases cla <;> cases cll <;> cases cma <;> cases cml <;> cases iac
  case noRot.false.false.false.false.false => exact wellFormed_nameGroup1_empty u
  all_goals rfl

theorem wellFormed_nameGroup2 (r : Bool) (f : Opr2) (u : BitVec 5) : (nameGroup2 r f u).wellFormed = true := by
  obtain ⟨cla, sma, sza, snl, hlt⟩ := f
  cases r <;> cases cla <;> cases sma <;> cases sza <;> cases snl <;> cases hlt <;> rfl

theorem wellFormed_nameGroup3 (f : Opr3) (i : Bool) (u : BitVec 3) : (nameGroup3 f i u).wellFormed = true := by
  obtain ⟨cla, mq, eop⟩ := f
  cases cla <;> cases mq <;> cases eop <;> rfl

/-- A set that its class row writes has no shorter name: every shorter name is of a set the check refuses. -/
theorem nameGroup1_of_wellFormed (f : Opr1) (u : BitVec 4) (h : wellFormedGroup1 f u = true) :
    nameGroup1 f u = .group1 f u := by
  unfold nameGroup1
  split
  case h_1 =>
    split
    · next hu => rw [hu] at h; cases h
    · rfl
  case h_14 => rfl
  all_goals cases h

/-- The class row of a group 2 set, with or without the reverse bit. -/
def classRow2 (r : Bool) (f : Opr2) (u : BitVec 5) : Instr := if r then .reverse f u else .group2 f u

theorem nameGroup2_of_wellFormed (r : Bool) (f : Opr2) (u : BitVec 5)
    (h : (classRow2 r f u).wellFormed = true) : nameGroup2 r f u = classRow2 r f u := by
  unfold nameGroup2
  split
  case h_6 => rfl
  case h_11 => rfl
  all_goals cases h

theorem nameGroup3_of_wellFormed (f : Opr3) (i : Bool) (u : BitVec 3) (h : wellFormedGroup3 f = true) :
    nameGroup3 f i u = .group3 f i u := by
  unfold nameGroup3
  split
  case h_21 => rfl
  all_goals cases h

/-! ### The round trips -/

/-- Settles O2: an accepted word is the encoding of its own fields, whichever class it belongs to. -/
theorem encodeOfDecodeIsTheWord : Obligations.EncodeOfDecodeIsTheWord := by
  intro w i hi
  cases (decode_ok_iff w i).mp hi with
  | imm top => exact ⟨rfl, encode_imm_fields top⟩
  | and head | tad head | dca head | isz head | jms head | jmp head => exact ⟨rfl, encodeMri_fields head⟩
  | iot head => exact ⟨rfl, encode_iot_fields head⟩
  | group1 head b11 =>
    exact ⟨wellFormed_nameGroup1 _ _, (encode_nameGroup1 _ _).trans (encodeGroup1_fields head b11)⟩
  | group2 head b11 b0 =>
    exact ⟨wellFormed_nameGroup2 _ _ _, (encode_nameGroup2 _ _ _).trans (encodeGroup2_fields head b11 b0)⟩
  | group3 head b11 b0 =>
    exact ⟨wellFormed_nameGroup3 _ _ _, (encode_nameGroup3 _ _ _).trans (encodeGroup3_fields head b11 b0)⟩

theorem decode_encodeGroup1 (f : Opr1) (u : BitVec 4) : decode (encodeGroup1 f u) = .ok (nameGroup1 f u) := by
  have h := DecodesTo.group1 (header_encodeGroup1 f u) (encodeGroup1_group f u)
  rw [opr1Of_encodeGroup1, unassigned1_encodeGroup1] at h
  exact (decode_ok_iff _ _).mpr h

theorem decode_encodeGroup2 (r : Bool) (f : Opr2) (u : BitVec 5) :
    decode (encodeGroup2 r f u) = .ok (nameGroup2 r f u) := by
  have h := DecodesTo.group2 (header_encodeGroup2 r f u) (encodeGroup2_group r f u).1 (encodeGroup2_group r f u).2
  rw [opr2Of_encodeGroup2, unassigned2_encodeGroup2, encodeGroup2_reverse] at h
  exact (decode_ok_iff _ _).mpr h

theorem decode_encodeGroup3 (f : Opr3) (i : Bool) (u : BitVec 3) :
    decode (encodeGroup3 f i u) = .ok (nameGroup3 f i u) := by
  have h := DecodesTo.group3 (header_encodeGroup3 f i u) (encodeGroup3_group f i u).1 (encodeGroup3_group f i u).2
  rw [opr3Of_encodeGroup3, unassigned3_encodeGroup3, encodeGroup3_indirect] at h
  exact (decode_ok_iff _ _).mpr h

theorem encodeMri_operands (op : BitVec 3) (i p : Bool) (off : BitVec 11) :
    (encodeMri op i p off).getLsbD 12 = i ∧ (encodeMri op i p off).getLsbD 11 = p ∧
    (encodeMri op i p off).extractLsb' 0 11 = off := by
  refine ⟨?_, ?_, BitVec.extractLsb'_append_eq_right⟩
  · rw [encodeMri, BitVec.getLsbD_append, if_neg (by decide)]
    exact (getLsbD_append_bit_succ _ _ 0).trans (getLsbD_append_bit_zero _ _)
  · rw [encodeMri, BitVec.getLsbD_append, if_neg (by decide)]
    exact getLsbD_append_bit_zero _ _

/-- The six memory-referencing instructions differ in OP and constructor alone. -/
theorem decode_encodeMri {op : BitVec 3} {mk : Bool → Bool → BitVec 11 → Instr}
    (hmk : ∀ w : Word, w.extractLsb' 13 19 = header op →
      DecodesTo w (mk (w.getLsbD 12) (w.getLsbD 11) (w.extractLsb' 0 11)))
    (i p : Bool) (off : BitVec 11) : decode (encodeMri op i p off) = .ok (mk i p off) := by
  have h := hmk _ (header_encodeMri op i p off)
  obtain ⟨h12, h11, hoff⟩ := encodeMri_operands op i p off
  rw [h12, h11, hoff] at h
  exact (decode_ok_iff _ _).mpr h

theorem decode_encode_imm (v : BitVec 31) : decode (encode (.imm v)) = .ok (.imm v) := by
  have htop : (encode (.imm v)).getLsbD 31 = true := by
    rw [getLsbD_31_iff, encode_imm_toNat]
    exact Nat.le_add_right _ _
  have hfield : (encode (.imm v)).extractLsb' 0 31 = v := BitVec.extractLsb'_append_eq_right
  have h := DecodesTo.imm htop
  rw [hfield] at h
  exact (decode_ok_iff _ _).mpr h

theorem decode_encode_iot (x : Bool) (d : BitVec 8) (dop : BitVec 4) :
    decode (encode (.iot x d dop)) = .ok (.iot x d dop) := by
  have hx : (encode (.iot x d dop)).getLsbD 12 = x := by
    rw [encode, BitVec.getLsbD_append, if_neg (by decide), BitVec.getLsbD_append, if_neg (by decide)]
    exact getLsbD_append_bit_zero _ _
  have hd : (encode (.iot x d dop)).extractLsb' 4 8 = d := by
    rw [encode, BitVec.extractLsb'_append_eq_of_le (by decide)]
    exact BitVec.extractLsb'_append_eq_right
  have hdop : (encode (.iot x d dop)).extractLsb' 0 4 = dop := BitVec.extractLsb'_append_eq_right
  have h := DecodesTo.iot (header_iot x d dop)
  rw [hx, hd, hdop] at h
  exact (decode_ok_iff _ _).mpr h

/-- Settles O1: the decoder reads every operand back from the place the encoder wrote it to, and the name of
an operate set is the instruction that was encoded. -/
theorem decodeOfEncodeIsTheInstruction : Obligations.DecodeOfEncodeIsTheInstruction := by
  intro i h
  cases i with
  | imm v => exact decode_encode_imm v
  | and i p off => exact decode_encodeMri (fun _ => .and) i p off
  | tad i p off => exact decode_encodeMri (fun _ => .tad) i p off
  | dca i p off => exact decode_encodeMri (fun _ => .dca) i p off
  | isz i p off => exact decode_encodeMri (fun _ => .isz) i p off
  | jms i p off => exact decode_encodeMri (fun _ => .jms) i p off
  | jmp i p off => exact decode_encodeMri (fun _ => .jmp) i p off
  | iot x d dop => exact decode_encode_iot x d dop
  | group1 f u => exact (decode_encodeGroup1 f u).trans (congrArg _ (nameGroup1_of_wellFormed f u h))
  | group2 f u => exact (decode_encodeGroup2 _ f u).trans (congrArg _ (nameGroup2_of_wellFormed false f u h))
  | reverse f u => exact (decode_encodeGroup2 _ f u).trans (congrArg _ (nameGroup2_of_wellFormed true f u h))
  | group3 f i u => exact (decode_encodeGroup3 f i u).trans (congrArg _ (nameGroup3_of_wellFormed f i u h))
  | nop | cla1 u | cll u | cma u | cml u | iac u | rar u | rtr u | ral u | rtl u | hsw u | pca u | bsw u =>
    exact decode_encodeGroup1 _ _
  | cla2 u | sma u | sza u | snl u | spa u | sna u | szl u | skp u | hlt u =>
    exact decode_encodeGroup2 _ _ _
  | cla3 i u | mqa i u | mql i u | swp i u | eop0 i u | asc i u | muy i u | dvi i u | nmi i u | shl i u
  | lsr i u | asr i u | sca i u | dad i u | dst i u | eopB i u | dpic i u | dpsz i u | dcm i u | sam i u =>
    exact decode_encodeGroup3 _ _ _

end Sys2Proof
end

section
/-! PROOFS. The cycle (R120 to R123): what a step is in each of its four cases, and the statements that follow
from one case alone. -/

namespace Sys2Proof.Machine

/-! ### The four cases of a step -/

theorem State.executeIr_ok {s : State} {i : Instr} (h : decode s.ir = .ok i) : s.executeIr = exec i s := by
  rw [State.executeIr, h]

theorem State.executeIr_reserved {s : State} {w : Word} (h : decode s.ir = .error (.reserved w)) :
    s.executeIr = .refused (.reservedWord w) := by
  rw [State.executeIr, h]

theorem step_halted {s : State} (hrun : s.run = false) : step s = .next s := by
  rw [step, State.cycle, hrun]
  rfl

theorem step_skipped {s : State} (hrun : s.run = true) (hskip : s.skip = true) :
    step s = .next s.fetch.skipFetched := by
  have hfetch : s.fetch.skip = true := hskip
  rw [step, State.cycle, if_pos hrun]
  exact if_pos hfetch

theorem step_executed {s : State} (hrun : s.run = true) (hskip : s.skip = false) :
    step s = s.fetch.executeIr := by
  have hfetch : ¬ s.fetch.skip = true := by rw [show s.fetch.skip = false from hskip]; decide
  rw [step, State.cycle, if_pos hrun]
  exact if_neg hfetch

theorem step_decoded {s : State} (hrun : s.run = true) (hskip : s.skip = false) {i : Instr}
    (h : decode (s.readWord s.pc) = .ok i) : step s = exec i s.fetch :=
  (step_executed hrun hskip).trans (State.executeIr_ok h)

theorem step_reserved {s : State} (hrun : s.run = true) (hskip : s.skip = false) {w : Word}
    (h : decode (s.readWord s.pc) = .error (.reserved w)) : step s = .refused (.reservedWord w) :=
  (step_executed hrun hskip).trans (State.executeIr_reserved h)

/-! ### The advanced PC and the fetch -/

/-- The wrap of R122: the next address is taken where it is at most H. -/
theorem nextAddress_eq (h pc : Word) :
    nextAddress h pc = if (pc.toNat + 1) % 2 ^ 32 ≤ h.toNat then pc + 1 else 0 := by
  have hsum : (pc + 1).toNat = (pc.toNat + 1) % 2 ^ 32 := BitVec.toNat_add pc 1
  rw [nextAddress, hsum]
  by_cases hle : (pc.toNat + 1) % 2 ^ 32 ≤ h.toNat
  · rw [if_neg (by omega), if_pos hle]
  · rw [if_pos (by omega), if_neg hle]

/-- Settles O6: the fetch writes IR, Y, OP and PC as stated, and the three cases are the three branches of the
cycle. -/
theorem stepRunsTheDecodedInstruction : Obligations.StepRunsTheDecodedInstruction := by
  intro s w fetched
  have hfetched : fetched = s.fetch := by
    rw [State.fetch_eq, nextAddress_eq]
    rfl
  rw [hfetched]
  exact ⟨fun hrun hskip i hi => step_decoded hrun hskip hi, fun hrun hskip => step_skipped hrun hskip,
    fun hrun => step_halted hrun⟩

/-! ### Reserved words (R93) -/

/-- Settles O4: the decoder tests bit 31 and then IR[30:16], and the machine refuses what the decoder reports. -/
theorem reservedWordIsRefused : Obligations.ReservedWordIsRefused := by
  intro s w h31 hmid
  have hdecode : decode w = .error (.reserved w) := by
    rw [decode, h31, if_neg Bool.false_ne_true, if_neg hmid]
  refine ⟨hdecode, fun hrun hskip hw => step_reserved hrun hskip ?_⟩
  rw [hw, hdecode]

/-- Settles O5: the decoder is evaluated on each of the ten words. -/
theorem writtenOutWordsDecode : Obligations.WrittenOutWordsDecode :=
  ⟨rfl, rfl, rfl, rfl, rfl, rfl, rfl, rfl, rfl, rfl⟩

/-! ### Halting, the restart and reset (R198, R262, R275) -/

theorem exec_hlt (u : BitVec 5) (s : State) : exec (.hlt u) s = .next { s with run := false } := rfl

/-- Settles O8: a halted machine is the case of the cycle that answers the state itself, and both HLT and the
restart write RUN alone. -/
theorem hltHaltsAndRestartResumes : Obligations.HltHaltsAndRestartResumes :=
  ⟨rfl, exec_hlt, fun _ hrun => step_halted hrun, fun _ _ => rfl⟩

/-- Where no word is listed, every address reads 0, existing or not. -/
theorem State.readWord_of_mem_nil {s : State} (h : s.mem = []) (a : Word) : s.readWord a = 0 := by
  rw [State.readWord, h, Memory.lookup_nil]
  exact ite_self 0

/-- Settles O14: the values of the reset state are evaluated, and its memory lists no word. -/
theorem resetMeetsTheInvariant : Obligations.ResetMeetsTheInvariant :=
  ⟨by decide, rfl, rfl, State.readWord_of_mem_nil rfl⟩

end Sys2Proof.Machine
end

section
/-! PROOFS. What an instruction can do: the meaning of the name of an operate set, and what the actions of each
group leave unchanged. -/

namespace Sys2Proof.Machine

/-! ### The meaning of a named set (R103, log entry 7) -/

/-- Under every name, a group 1 set takes its actions in order. -/
theorem exec_nameGroup1 (f : Opr1) (u : BitVec 4) (s : State) :
    exec (nameGroup1 f u) s = .next (s.group1Actions f) := by
  unfold nameGroup1
  split
  case h_1 => split <;> rfl
  all_goals rfl

theorem exec_nameGroup2 (r : Bool) (f : Opr2) (u : BitVec 5) (s : State) :
    exec (nameGroup2 r f u) s = .next (s.group2Actions r f) := by
  unfold nameGroup2
  split <;> rfl

theorem exec_nameGroup3 (f : Opr3) (i : Bool) (u : BitVec 3) (s : State) :
    exec (nameGroup3 f i u) s = (s.acMqPart f).performEop f.eop i := by
  unfold nameGroup3
  split <;> rfl

/-! ### Observations an action keeps -/

section
variable {α : Type} {v : State → α} {f : State → State}

theorem whenBit_keeps (hf : ∀ s, v (f s) = v s) (b : Bool) (s : State) : v (s.whenBit b f) = v s := by
  cases b with
  | false => rfl
  | true => exact hf s

theorem repeatN_keeps (hf : ∀ s, v (f s) = v s) (n : Nat) (s : State) : v (State.repeatN n f s) = v s := by
  induction n generalizing s with
  | zero => rfl
  | succ n ih => exact (ih (f s)).trans (hf s)

end

/-! ### Group 1 writes AC, L and B (R165) -/

/-- The state without the registers group 1 writes. -/
def State.restOfGroup1 (s : State) : State := { s with ac := 0, l := false, b := false }

theorem group1Actions_rest (f : Opr1) (s : State) : (s.group1Actions f).restOfGroup1 = s.restOfGroup1 := by
  have hrot (t : State) : (t.rotSelected f.rot).restOfGroup1 = t.restOfGroup1 := by
    cases f.rot <;> rfl
  calc (s.group1Actions f).restOfGroup1
    _ = _ := hrot _
    _ = _ := whenBit_keeps (f := State.incrementAc) (fun _ => rfl) f.iac _
    _ = _ := whenBit_keeps (f := State.complementLink) (fun _ => rfl) f.cml _
    _ = _ := whenBit_keeps (f := State.complementAc) (fun _ => rfl) f.cma _
    _ = _ := whenBit_keeps (f := State.clearLink) (fun _ => rfl) f.cll _
    _ = s.restOfGroup1 := whenBit_keeps (f := State.clearAc) (fun _ => rfl) f.cla _

/-! ### Group 2 writes AC, S and RUN (R190) -/

/-- Group 2 as one write of AC, S and RUN. -/
theorem group2Actions_eq (r : Bool) (f : Opr2) (s : State) :
    s.group2Actions r f =
      { s with
        ac := if f.cla then 0 else s.ac
        run := if f.hlt then false else s.run
        skip := r ^^ (f.snl && s.l || (f.sza && (s.whenBit f.cla State.clearAc).acZero ||
          (f.sma && (s.whenBit f.cla State.clearAc).acMinus || s.skip))) } := by
  have htests : s.group2Tests f = { s with
      ac := if f.cla then 0 else s.ac
      skip := f.snl && s.l || (f.sza && (s.whenBit f.cla State.clearAc).acZero ||
          (f.sma && (s.whenBit f.cla State.clearAc).acMinus || s.skip)) } := by
    unfold State.group2Tests
    simp only [State.skipWhen_eq]
    cases f.cla <;> rfl
  rw [State.group2Actions, htests]
  cases r <;> cases f.hlt <;> simp [State.whenBit, State.reverseSkip, State.halt, State.setRun, State.setSkip]

/-! ### The EOP operations write AC, MQ, L, SC and Y (R205, R212) -/

/-- The EOP operations that read an operand word through PC (R218). -/
def takesOperand : Eop → Bool
  | .muy | .dvi | .dad | .dst => true
  | _ => false

/-- The state without the registers the operation `e` writes: PC only where it takes an operand word, memory only
for DST, S only for DPSZ. -/
def State.restOfEop (e : Eop) (s : State) : State :=
  { s with
    ac := 0, mq := 0, l := false, sc := 0, y := 0
    pc := if takesOperand e then 0 else s.pc
    mem := if e = .dst then [] else s.mem
    skip := if e = .dpsz then false else s.skip }

theorem shiftBySc_rest {e : Eop} {f : State → State} (hf : ∀ s : State, s.tripleFrom (f s) = s) (s : State) :
    (s.shiftBySc f).restOfEop e = s.restOfEop e :=
  calc (s.shiftBySc f).restOfEop e
    _ = (s.tripleFrom (s.shiftBySc f)).restOfEop e := rfl
    _ = (s.setSc 0).restOfEop e := by rw [State.tripleFrom_shiftBySc hf]
    _ = s.restOfEop e := rfl

/-- Divide overflow sets L and leaves AC and MQ at the free values (R222, log entry 2). -/
theorem divide_of_overflow {s : State} (h : s.divideOverflows = true) :
    s.divide = { s with
      ac := Config.dviOverflowAc s.ac s.mq s.y, mq := Config.dviOverflowMq s.ac s.mq s.y, l := true, sc := 0 } := by
  rw [State.divide, if_pos h]
  rfl

/-- Without overflow MQ takes the quotient and AC the remainder (R221). -/
theorem divide_of_no_overflow {s : State} (h : s.divideOverflows = false) :
    s.divide = { s with
      ac := BitVec.ofNat 32 (s.double % s.y.toNat), mq := BitVec.ofNat 32 (s.double / s.y.toNat)
      l := false, sc := 0 } := by
  have hwrites (a m : Word) (c : Bool) :
      (((s.setAc a).setMq m).setL c).setSc 0 = { s with ac := a, mq := m, l := c, sc := 0 } := rfl
  rw [State.divide, if_neg (by rw [h]; decide), hwrites, State.double]

/-- DVI writes AC, MQ, L and SC, whatever it divides. -/
theorem State.divide_writes (s : State) : ∃ a m, s.divide = { s with ac := a, mq := m, l := s.divideOverflows, sc := 0 } := by
  cases h : s.divideOverflows
  case true => exact ⟨_, _, divide_of_overflow h⟩
  case false => exact ⟨_, _, divide_of_no_overflow h⟩

theorem divide_rest (s : State) : s.divide.restOfEop .dvi = s.restOfEop .dvi := by
  obtain ⟨a, m, h⟩ := s.divide_writes
  rw [h]
  rfl

theorem doubleStore_rest (s : State) : s.doubleStore.restOfEop .dst = s.restOfEop .dst := by
  rw [State.doubleStore, State.writeWord_eq, State.writeWord_eq]
  rfl

/-- The loop of NMI ends, if it does, in a state reached by shifting and counting. -/
theorem normalise_next {s t : State} (h : s.normalise = .next t) :
    State.normaliseLoop Config.nmiShiftBound (s.setSc 0) = some t := by
  unfold State.normalise at h
  split at h
  · next hloop => cases h; exact hloop
  · cases h

theorem normalise_rest {s t : State} (h : s.normalise = .next t) : t.restOfEop .nmi = s.restOfEop .nmi := by
  obtain ⟨n, -, rfl, -, -⟩ := State.normaliseLoop_some _ _ _ (normalise_next h)
  exact repeatN_keeps (f := State.normaliseStep) (fun _ => rfl) n _

/-- What an EOP operation leaves unchanged once EOP is set. -/
theorem performEop_rest {e : Eop} {i : Bool} {s t : State} (h : s.performEop e i = .next t) :
    t.restOfEop e = (s.selectEop e).restOfEop e := by
  cases e with
  | nmi => exact normalise_rest h
  | dvi =>
    cases h
    rw [divide_rest, State.operandFetch_eq]
    rfl
  | dst =>
    cases h
    rw [doubleStore_rest, State.operandFetch_eq]
    rfl
  | muy | dad =>
    cases h
    rw [State.operandFetch_eq]
    rfl
  | shl => cases h; exact shiftBySc_rest State.tripleFrom_shiftLeft1 _
  | lsr => cases h; exact shiftBySc_rest State.tripleFrom_logicalRight1 _
  | asr => cases h; exact shiftBySc_rest (f := State.arithRight1) (fun _ => rfl) _
  | none0 | asc | sca | noneB | dpic | dpsz | dcm | sam => cases h; rfl

theorem acMqPart_rest (e : Eop) (f : Opr3) (s : State) : (s.acMqPart f).restOfEop e = s.restOfEop e := by
  have hclear := whenBit_keeps (v := State.restOfEop e) (f := State.clearAc) (fun _ => rfl) f.cla s
  unfold State.acMqPart
  cases f.mq <;> exact hclear

end Sys2Proof.Machine
end

section
/-! PROOFS. Memory (R64 to R68, R281): reads after writes, the canonical form, and the effective address. -/

namespace Sys2Proof.Machine

/-! ### The canonical form of the memory (log entry 4) -/

/-- Two memories in canonical form that read alike at every address are the same list. -/
theorem Memory.ext_of_lookup (m n : Memory) (hm : m.wf = true) (hn : n.wf = true)
    (h : ∀ a, m.lookup a = n.lookup a) : m = n := by
  induction m generalizing n with
  | nil =>
    cases n with
    | nil => rfl
    | cons d n =>
      obtain ⟨k, x⟩ := d
      obtain ⟨hx, -, -⟩ := (Memory.wf_cons k x n).mp hn
      have hk := h k
      rw [Memory.lookup_nil, Memory.lookup_cons, if_pos rfl] at hk
      exact absurd hk.symm hx
  | cons c m ih =>
    obtain ⟨j, x⟩ := c
    obtain ⟨hx, hj, hm'⟩ := (Memory.wf_cons j x m).mp hm
    have hfirst : (Memory.lookup ((j, x) :: m) j) = x := by rw [Memory.lookup_cons, if_pos rfl]
    cases n with
    | nil => exact absurd (hfirst.symm.trans (h j)) hx
    | cons d n =>
      obtain ⟨k, y⟩ := d
      obtain ⟨hy, hk, hn'⟩ := (Memory.wf_cons k y n).mp hn
      have hfirst' : (Memory.lookup ((k, y) :: n) k) = y := by rw [Memory.lookup_cons, if_pos rfl]
      have hjk : j = k := by
        rcases Nat.lt_trichotomy j k with hlt | heq | hlt
        · have hbelow := Memory.lookup_below ((k, y) :: n) j
            (List.forall_mem_cons.mpr ⟨hlt, fun c hc => hlt.trans (hk c hc)⟩)
          exact absurd (hfirst.symm.trans ((h j).trans hbelow)) hx
        · exact heq
        · have hbelow := Memory.lookup_below ((j, x) :: m) k
            (List.forall_mem_cons.mpr ⟨hlt, fun c hc => hlt.trans (hj c hc)⟩)
          exact absurd (hfirst'.symm.trans ((h k).symm.trans hbelow)) hy
      subst hjk
      obtain rfl : x = y := hfirst.symm.trans ((h j).trans hfirst')
      congr 1
      refine ih n hm' hn' fun a => ?_
      by_cases ha : j = a
      · subst ha
        rw [Memory.lookup_below m j hj, Memory.lookup_below n j hk]
      · have hrest := h a
        rwa [Memory.lookup_cons, Memory.lookup_cons, if_neg ha, if_neg ha] at hrest

/-- Storing the word a memory already holds at an address, after any other store there, restores it. -/
theorem Memory.store_store_lookup (m : Memory) (a : Nat) (v : Word) (hm : m.wf = true) :
    (m.store a v).store a (m.lookup a) = m := by
  have hv := Memory.wf_store m a v hm
  refine Memory.ext_of_lookup _ _ (Memory.wf_store _ _ _ hv) hm fun b => ?_
  rw [Memory.lookup_store _ _ _ _ hv, Memory.lookup_store _ _ _ _ hm]
  by_cases hb : b = a
  · rw [if_pos hb, hb]
  · rw [if_neg hb, if_neg hb]

/-! ### Reads and writes of one word (R64 to R66, D16) -/

variable (s : State)

theorem State.existsAt_iff (a : Word) : s.existsAt a = true ↔ a.toNat ≤ s.h.toNat := decide_eq_true_iff

theorem State.readWord_of_le {a : Word} (ha : a.toNat ≤ s.h.toNat) : s.readWord a = s.mem.lookup a.toNat :=
  if_pos ((s.existsAt_iff a).mpr ha)

theorem State.readWord_of_lt {a : Word} (ha : s.h.toNat < a.toNat) : s.readWord a = 0 :=
  if_neg (mt (s.existsAt_iff a).mp (by omega))

theorem State.writeWord_of_le {a : Word} (ha : a.toNat ≤ s.h.toNat) (v : Word) :
    s.writeWord a v = s.setMem (s.mem.store a.toNat v) :=
  if_pos ((s.existsAt_iff a).mpr ha)

theorem State.writeWord_of_lt {a : Word} (ha : s.h.toNat < a.toNat) (v : Word) : s.writeWord a v = s :=
  if_neg (mt (s.existsAt_iff a).mp (by omega))

theorem State.readWord_writeWord_same {a : Word} (ha : a.toNat ≤ s.h.toNat) (v : Word) (hm : s.mem.wf = true) :
    (s.writeWord a v).readWord a = v := by
  rw [s.writeWord_of_le ha, (s.setMem (s.mem.store a.toNat v)).readWord_of_le ha]
  exact (Memory.lookup_store _ _ _ _ hm).trans (if_pos rfl)

theorem State.readWord_writeWord_ne {a b : Word} (hab : b ≠ a) (v : Word) (hm : s.mem.wf = true) :
    (s.writeWord a v).readWord b = s.readWord b := by
  rcases Nat.lt_or_ge s.h.toNat a.toNat with ha | ha
  · rw [s.writeWord_of_lt ha]
  rcases Nat.lt_or_ge s.h.toNat b.toNat with hb | hb
  · rw [s.readWord_of_lt hb, State.readWord_of_lt _ (by rwa [State.writeWord_h])]
  rw [s.writeWord_of_le ha, s.readWord_of_le hb, (s.setMem (s.mem.store a.toNat v)).readWord_of_le hb]
  exact (Memory.lookup_store _ _ _ _ hm).trans (if_neg (mt BitVec.toNat_inj.mp hab))

/-- Settles O15: the store is found under its own address only, and the bound H decides whether there is one. -/
theorem readAfterWriteFindsTheWord : Obligations.ReadAfterWriteFindsTheWord := by
  intro s a v hm
  refine ⟨fun ha => s.readWord_writeWord_same ha v hm, fun b hb => s.readWord_writeWord_ne hb v hm,
    fun ha => ⟨s.writeWord_of_lt ha v, s.readWord_of_lt ha⟩, ?_⟩
  rw [State.writeWord_eq]
  rfl

/-- Settles O16: a word that exists reads back non-zero, and storing the 0 it held restores the list, the
canonical form being unique. -/
theorem pageProbeTellsExistence : Obligations.PageProbeTellsExistence := by
  intro s a v hm hzero hv
  rcases Nat.lt_or_ge s.h.toNat a.toNat with ha | ha
  · rw [s.writeWord_of_lt ha, s.writeWord_of_lt ha]
    exact ⟨iff_of_true hzero ha, rfl⟩
  · rw [s.readWord_writeWord_same ha v hm]
    refine ⟨iff_of_false hv (by omega), ?_⟩
    rw [s.readWord_of_le ha] at hzero
    rw [s.writeWord_of_le ha, (s.setMem (s.mem.store a.toNat v)).writeWord_of_le ha, ← hzero]
    exact congrArg s.setMem (Memory.store_store_lookup _ _ _ hm)

/-! ### The invariant (R27, R28, R64, R66) -/

theorem State.inv_iff : s.inv = true ↔
    s.mem.wf = true ∧ s.listsOnlyExisting = true ∧ legalH s.h = true ∧ legalSelector s.base = true ∧
      legalSelector s.sbase = true := by
  simp only [State.inv, Bool.and_eq_true, and_assoc]

theorem State.mem_wf_of_inv {s : State} (h : s.inv = true) : s.mem.wf = true := (s.inv_iff.mp h).1

/-- Page zero exists (R64, D16). -/
theorem State.pageZero_le_of_inv {s : State} (h : s.inv = true) : 0x7FF ≤ s.h.toNat := by
  obtain ⟨-, -, hlegal, -, -⟩ := s.inv_iff.mp h
  simp only [legalH, Bool.and_eq_true, decide_eq_true_iff] at hlegal
  exact hlegal.1.1

/-! ### The effective address (R140 to R143) -/

/-- The initial Y is the address the page bit and the offset form. -/
theorem initialY_eq (p : Bool) (off : BitVec 11) (y : Word) :
    initialY p off y = BitVec.ofNat 32 (directAddress p off y) := by
  rw [← initialY_toNat, BitVec.ofNat_toNat, BitVec.setWidth_eq]

/-- An address of page zero is the offset, zero-extended. -/
theorem initialY_pageZero (off : BitVec 11) (y : Word) : initialY false off y = off.setWidth 32 :=
  (BitVec.setWidth_eq_append (x := off) (by decide)).symm

theorem inAutoIncrement_iff (a : Word) : inAutoIncrement a = true ↔ 0x200 ≤ a.toNat ∧ a.toNat ≤ 0x2FF := by
  rw [inAutoIncrement, Bool.and_eq_true, decide_eq_true_iff, decide_eq_true_iff]
  rfl

/-- A direct address only sets Y. -/
theorem State.effectiveAddress_direct (p : Bool) (off : BitVec 11) :
    s.effectiveAddress false p off = s.setY (initialY p off s.y) := rfl

theorem State.effectiveAddress_indirect {p : Bool} {off : BitVec 11}
    (h : ¬ inAutoIncrement (initialY p off s.y) = true) :
    s.effectiveAddress true p off = s.setY (s.readWord (initialY p off s.y)) := by
  rcases s.effectiveAddress_cases true p off with ⟨hi, -⟩ | ⟨-, -, he⟩ | ⟨-, hauto, -⟩
  · cases hi
  · exact he
  · exact absurd hauto h

theorem State.effectiveAddress_autoIncrement {p : Bool} {off : BitVec 11}
    (h : inAutoIncrement (initialY p off s.y) = true) :
    s.effectiveAddress true p off =
      (s.writeWord (initialY p off s.y) (s.readWord (initialY p off s.y) + 1)).setY
        ((s.writeWord (initialY p off s.y) (s.readWord (initialY p off s.y) + 1)).readWord
          (initialY p off s.y)) := by
  rcases s.effectiveAddress_cases true p off with ⟨hi, -⟩ | ⟨-, hauto, -⟩ | ⟨-, -, he⟩
  · cases hi
  · rw [hauto] at h; cases h
  · exact he

/-- Settles O18: the auto-increment range lies in page zero, which exists, so the incremented pointer is what the
indirect step reads back. -/
theorem effectiveAddressIsFormedAsStated : Obligations.EffectiveAddressIsFormedAsStated := by
  intro s i p off hinv
  dsimp only
  rw [← initialY_eq, ← inAutoIncrement_iff]
  refine ⟨?_, ?_, ?_⟩
  · rintro rfl
    exact s.effectiveAddress_direct p off
  · rintro rfl hauto
    exact s.effectiveAddress_indirect hauto
  · rintro rfl hlow hhigh
    have hm := State.mem_wf_of_inv hinv
    have hexists : (initialY p off s.y).toNat ≤ s.h.toNat := by
      have := State.pageZero_le_of_inv hinv
      omega
    rw [s.effectiveAddress_autoIncrement ((inAutoIncrement_iff _).mpr ⟨hlow, hhigh⟩)]
    have hread := s.readWord_writeWord_same hexists (s.readWord (initialY p off s.y) + 1) hm
    refine ⟨hread, hread, fun b hb => s.readWord_writeWord_ne hb _ hm, ?_⟩
    rw [State.writeWord_eq]
    rfl

end Sys2Proof.Machine
end

section
/-! PROOFS. The memory-referencing instructions TAD, DCA, ISZ, JMS and JMP (R145 to R155), and a word stored into
the next one (R281). -/

namespace Sys2Proof.Machine

variable (i p : Bool) (off : BitVec 11) (s : State)

/-! ### The instructions, the effective address being formed -/

theorem exec_tad : exec (.tad i p off) s =
    .next ((s.effectiveAddress i p off).addToAc
      ((s.effectiveAddress i p off).readWord (s.effectiveAddress i p off).y)) := rfl

theorem exec_dca : exec (.dca i p off) s =
    .next (((s.effectiveAddress i p off).writeWord (s.effectiveAddress i p off).y
      (s.effectiveAddress i p off).ac).setAc 0) := rfl

theorem exec_isz : exec (.isz i p off) s = .next (s.effectiveAddress i p off).incrementAtY := rfl

theorem exec_jms : exec (.jms i p off) s = .next (s.effectiveAddress i p off).linkAndJump := rfl

theorem exec_jmp : exec (.jmp i p off) s =
    .next { s.effectiveAddress i p off with pc := (s.effectiveAddress i p off).y } := rfl

/-- The memory stays in canonical form while the address is formed. -/
theorem effectiveAddress_wf_of_inv {s : State} (h : s.inv = true) : (s.effectiveAddress i p off).mem.wf = true :=
  s.effectiveAddress_wf i p off (State.mem_wf_of_inv h)

end Sys2Proof.Machine

namespace Sys2Proof.Machine

/-! ### TAD (R147) -/

/-- The sum goes to AC, and its carry complements L. -/
theorem State.addToAc_values (v : Word) (s : State) :
    (s.addToAc v).ac.toNat = (s.ac.toNat + v.toNat) % 2 ^ 32 ∧
    (s.addToAc v).l = (if 2 ^ 32 ≤ s.ac.toNat + v.toNat then !s.l else s.l) := by
  have hcarry : carryOut s.ac v false = decide (2 ^ 32 ≤ s.ac.toNat + v.toNat) := rfl
  refine ⟨BitVec.toNat_ofNat _ _, ?_⟩
  calc (s.addToAc v).l
    _ = if carryOut s.ac v false = true then !s.l else s.l := rfl
    _ = _ := by rw [hcarry]; exact if_congr decide_eq_true_iff rfl rfl

/-- Settles O20: TAD is the adder on AC and the word at Y, and the address step keeps AC and L. -/
theorem tadAddsAndCarryFlipsLink : Obligations.TadAddsAndCarryFlipsLink := by
  intro i p off s
  obtain ⟨hac, hl⟩ := State.addToAc_values
    ((s.effectiveAddress i p off).readWord (s.effectiveAddress i p off).y) (s.effectiveAddress i p off)
  rw [State.effectiveAddress_ac] at hac hl
  rw [State.effectiveAddress_l] at hl
  exact ⟨encodeMri_eq_mriWord 1 i p off, _, exec_tad i p off s, hac, hl, rfl⟩

/-! ### Instructions that store at Y (R149, R151, R152) -/

/-- A store at Y, with Y where the address step put it. -/
theorem readWord_store_at {e : State} (hm : e.mem.wf = true) (v : Word) :
    (e.y.toNat ≤ e.h.toNat → (e.writeWord e.y v).readWord e.y = v) ∧
    (e.h.toNat < e.y.toNat → (e.writeWord e.y v).mem = e.mem) ∧
    (∀ a, a ≠ e.y → (e.writeWord e.y v).readWord a = e.readWord a) :=
  ⟨fun h => e.readWord_writeWord_same h v hm, fun h => congrArg State.mem (e.writeWord_of_lt h v),
    fun _ ha => e.readWord_writeWord_ne ha v hm⟩

/-- Settles O21: the store at Y, then AC alone. -/
theorem dcaDepositsAndClears : Obligations.DcaDepositsAndClears := by
  intro i p off s hinv
  dsimp only
  obtain ⟨hsame, hbeyond, hother⟩ :=
    readWord_store_at (effectiveAddress_wf_of_inv i p off hinv) (s.effectiveAddress i p off).ac
  rw [State.effectiveAddress_h] at hsame hbeyond
  refine ⟨encodeMri_eq_mriWord 2 i p off, _, exec_dca i p off s, rfl, fun h => ?_, hbeyond, hother, ?_⟩
  · exact (hsame h).trans (State.effectiveAddress_ac s i p off)
  · rw [State.writeWord_eq]
    rfl

/-- Settles O23: the store of the link at Y, then PC alone. -/
theorem jmsLinksAndEnters : Obligations.JmsLinksAndEnters := by
  intro i p off s hinv
  dsimp only
  obtain ⟨hsame, hbeyond, hother⟩ :=
    readWord_store_at (effectiveAddress_wf_of_inv i p off hinv) ((s.effectiveAddress i p off).pc + 1)
  rw [State.effectiveAddress_h] at hsame hbeyond
  refine ⟨encodeMri_eq_mriWord 4 i p off, _, exec_jms i p off s, rfl, fun h => ?_, hbeyond, hother, ?_⟩
  · exact (hsame h).trans (congrArg (· + 1) (State.effectiveAddress_pc s i p off))
  · rw [State.linkAndJump, State.writeWord_eq]
    rfl

/-- Settles O24: JMP copies the address to PC. -/
theorem jmpGoesToTheAddress : Obligations.JmpGoesToTheAddress :=
  fun i p off s => ⟨encodeMri_eq_mriWord 5 i p off, exec_jmp i p off s⟩

/-! ### ISZ (R151, D24) -/

/-- The incremented word is 0 where the word was all ones. -/
theorem incremented_zero_or (w : Word) (b : Bool) :
    (decide (w + 1 = 0) || b) = if w = 0xFFFFFFFF then true else b := by
  have hzero : w + 1 = 0 ↔ w = 0xFFFFFFFF := by bv_omega
  by_cases hw : w = 0xFFFFFFFF
  · rw [if_pos hw, decide_eq_true (hzero.mpr hw), Bool.true_or]
  · rw [if_neg hw, decide_eq_false (mt hzero.mp hw), Bool.false_or]

/-- ISZ stores the word plus 1 and ORs the zero test of the word read back into S. -/
theorem State.incrementAtY_eq (e : State) :
    e.incrementAtY =
      { e.writeWord e.y (e.readWord e.y + 1) with
        skip := decide ((e.writeWord e.y (e.readWord e.y + 1)).readWord e.y = 0) || e.skip } := by
  rw [State.incrementAtY]
  dsimp only
  rw [State.skipWhen_eq, State.writeWord_y, State.writeWord_skip, beq_eq_decide]

/-- Settles O22: what is read back is the incremented word where Y exists, and 0 where it does not. -/
theorem iszIncrementsAndSkipsOnZero : Obligations.IszIncrementsAndSkipsOnZero := by
  intro i p off s hinv
  dsimp only
  generalize he : s.effectiveAddress i p off = e
  have hm : e.mem.wf = true := he ▸ effectiveAddress_wf_of_inv i p off hinv
  have hh : e.h = s.h := he ▸ State.effectiveAddress_h s i p off
  have hskip : e.skip = s.skip := he ▸ State.effectiveAddress_skip s i p off
  obtain ⟨hsame, hbeyond, hother⟩ := readWord_store_at hm (e.readWord e.y + 1)
  rw [hh] at hsame hbeyond
  refine ⟨encodeMri_eq_mriWord 3 i p off, e.incrementAtY, by rw [exec_isz, he], ?_⟩
  rw [State.incrementAtY_eq]
  refine ⟨fun h => ⟨hsame h, ?_⟩, fun h => ⟨?_, hbeyond h⟩, hother, ?_⟩
  · rw [hsame h, hskip]
    exact incremented_zero_or _ _
  · rw [e.writeWord_of_lt (hh ▸ h), e.readWord_of_lt (hh ▸ h)]
    rfl
  · rw [State.writeWord_eq]
    rfl

/-! ### The whole family (R145) -/

/-- The state with the registers replaced that no memory-referencing instruction reads or writes. -/
def State.withUnused (mq base sbase : Word) (sc : BitVec 7) (s : State) : State :=
  { s with mq := mq, sc := sc, base := base, sbase := sbase }

section
variable (mq base sbase : Word) (sc : BitVec 7) (s : State)

theorem withUnused_writeWord (a v : Word) :
    (s.withUnused mq base sbase sc).writeWord a v = (s.writeWord a v).withUnused mq base sbase sc := by
  rw [State.writeWord_eq, State.writeWord_eq]
  rfl

theorem withUnused_effectiveAddress (i p : Bool) (off : BitVec 11) :
    (s.withUnused mq base sbase sc).effectiveAddress i p off =
      (s.effectiveAddress i p off).withUnused mq base sbase sc := by
  cases i with
  | false => rfl
  | true =>
    by_cases h : inAutoIncrement (initialY p off s.y) = true
    · rw [s.effectiveAddress_autoIncrement h, (s.withUnused mq base sbase sc).effectiveAddress_autoIncrement h]
      rw [show (s.withUnused mq base sbase sc).y = s.y from rfl, withUnused_writeWord]
      rfl
    · rw [s.effectiveAddress_indirect h, (s.withUnused mq base sbase sc).effectiveAddress_indirect h]
      rfl

theorem withUnused_incrementAtY :
    (s.withUnused mq base sbase sc).incrementAtY = s.incrementAtY.withUnused mq base sbase sc := by
  rw [State.incrementAtY_eq, State.incrementAtY_eq]
  exact congrArg (fun t : State => { t with skip := decide (t.readWord s.y = 0) || s.skip })
    (withUnused_writeWord mq base sbase sc s s.y (s.readWord s.y + 1))

/-- No memory-referencing instruction reads or writes MQ, SC, BASE or SBASE. -/
theorem exec_mri_withUnused {n : Instr} (hn : isMri n = true) :
    exec n (s.withUnused mq base sbase sc) = mapNext (State.withUnused mq base sbase sc) (exec n s) := by
  cases n with
  | and i p off =>
    rw [exec_and, exec_and, withUnused_effectiveAddress]
    rfl
  | tad i p off =>
    rw [exec_tad, exec_tad, withUnused_effectiveAddress]
    rfl
  | dca i p off =>
    rw [exec_dca, exec_dca, withUnused_effectiveAddress]
    exact congrArg (fun t : State => Host.Outcome.next (t.setAc 0)) (withUnused_writeWord mq base sbase sc _ _ _)
  | isz i p off =>
    rw [exec_isz, exec_isz, withUnused_effectiveAddress, withUnused_incrementAtY]
    rfl
  | jms i p off =>
    rw [exec_jms, exec_jms, withUnused_effectiveAddress]
    exact congrArg (fun t : State => Host.Outcome.next (t.setPc _)) (withUnused_writeWord mq base sbase sc _ _ _)
  | jmp i p off =>
    rw [exec_jmp, exec_jmp, withUnused_effectiveAddress]
    rfl
  | _ => cases hn

end

/-- What the family can change besides AC, Y and memory: L, S and PC, each by its own instructions. -/
theorem exec_mri_next {n : Instr} (hn : isMri n = true) (s : State) :
    ∃ t, exec n s = .next t ∧ t.mq = s.mq ∧ t.sc = s.sc ∧ t.base = s.base ∧ t.sbase = s.sbase ∧
      ((∀ i p off, n ≠ .tad i p off) → t.l = s.l) ∧ ((∀ i p off, n ≠ .isz i p off) → t.skip = s.skip) ∧
      (isJump n = false → t.pc = s.pc) := by
  cases n with
  | and i p off => exact ⟨_, exec_and i p off s, by simp⟩
  | tad i p off => exact ⟨_, exec_tad i p off s, by simp [State.addToAc, State.complementLinkOn]⟩
  | dca i p off => exact ⟨_, exec_dca i p off s, by simp⟩
  | isz i p off => exact ⟨_, exec_isz i p off s, by simp [State.incrementAtY_eq]⟩
  | jms i p off => exact ⟨_, exec_jms i p off s, by simp [State.linkAndJump, isJump]⟩
  | jmp i p off => exact ⟨_, exec_jmp i p off s, by simp [isJump]⟩
  | _ => cases hn

/-- Settles O25: the frame of each instruction, and the four registers replaced before or after it. -/
theorem mriFamilyTouchesOnlyItsRegisters : Obligations.MriFamilyTouchesOnlyItsRegisters := by
  intro n s mq base sbase sc hn
  obtain ⟨t, ht, hrest⟩ := exec_mri_next hn s
  have hunused := exec_mri_withUnused mq base sbase sc s hn
  rw [ht] at hunused
  exact ⟨t, ht, hunused, hrest⟩

/-! ### A call and its return (R152, R155) -/

/-- Settles O26: the link is stored in page zero, which exists, and the indirect JMP reads it from there. -/
theorem jmpThroughTheLinkReturns : Obligations.JmpThroughTheLinkReturns := by
  intro s r off hinv _ _ hauto
  have haddress : ∀ y, initialY false off y = off.setWidth 32 := initialY_pageZero off
  have hoffset : (off.setWidth 32).toNat = off.toNat :=
    (BitVec.toNat_setWidth 32 off).trans (Nat.mod_eq_of_lt (by have := off.isLt; omega))
  have hexists : (off.setWidth 32).toNat ≤ s.h.toNat := by
    have := State.pageZero_le_of_inv hinv
    have := off.isLt
    omega
  have hdirect : s.effectiveAddress false false off = s.setY (off.setWidth 32) := by
    rw [State.effectiveAddress_direct, haddress]
  have hindirect : r.effectiveAddress true false off = r.setY (r.readWord (off.setWidth 32)) := by
    rw [← haddress r.y]
    exact r.effectiveAddress_indirect (by rwa [haddress, inAutoIncrement_iff, hoffset])
  have hlink := s.readWord_writeWord_same hexists (s.pc + 1) (State.mem_wf_of_inv hinv)
  refine ⟨(s.setY (off.setWidth 32)).linkAndJump, by rw [exec_jms, hdirect], fun hsame => ?_⟩
  refine ⟨_, exec_jmp true false off r, ?_⟩
  calc (r.effectiveAddress true false off).y
    _ = r.readWord (off.setWidth 32) := by rw [hindirect]; rfl
    _ = (s.setY (off.setWidth 32)).linkAndJump.readWord (off.setWidth 32) := hsame
    _ = (s.writeWord (off.setWidth 32) (s.pc + 1)).readWord (off.setWidth 32) := by
      rw [State.linkAndJump, State.writeWord_eq, State.writeWord_eq]
      rfl
    _ = s.pc + 1 := hlink

/-! ### A word stored into the next word (R281) -/

/-- Settles O17: the direct DCA leaves PC at the next word, which exists and into which it has stored AC. -/
theorem storedWordIsFetchedNext : Obligations.StoredWordIsFetchedNext := by
  intro s p off hinv hrun hskip hdecode hnext
  have hY : initialY p off s.fetch.y = nextAddress s.h s.pc :=
    BitVec.eq_of_toNat_eq ((initialY_toNat p off s.pc).trans hnext)
  have haddress : s.fetch.effectiveAddress false p off = s.fetch.setY (nextAddress s.h s.pc) := by
    rw [State.effectiveAddress_direct, hY]
  have hread := s.fetch.readWord_writeWord_same (nextAddress_le s.h s.pc) s.ac (State.mem_wf_of_inv hinv)
  refine ⟨_, (step_decoded hrun hskip hdecode).trans (exec_dca false p off s.fetch), ?_, rfl⟩
  rw [haddress, ← hread, State.writeWord_eq, State.writeWord_eq]
  rfl

end Sys2Proof.Machine
end

section
/-! PROOFS. What every step keeps: the parameters and the page selectors, the canonical memory, PC within memory,
and RUN. -/

namespace Sys2Proof.Machine

/-! ### What an executed instruction answers, by class -/

/-- What the instruction of a word can leave behind, one case for each class of words. -/
inductive Executed (w : Word) (s : State) : State → Prop
  | imm (top : w.getLsbD 31 = true) (v : BitVec 31) : Executed w s { s with ac := immediate v, ir := immediate v }
  | mri (op : BitVec 3) (head : w.extractLsb' 13 19 = header op) (notOperate : op ≠ 7) (n : Instr)
      (hn : isMri n = true) (hdecode : decode w = .ok n) {t : State} (ht : exec n s = .next t) : Executed w s t
  | iot (head : w.extractLsb' 13 19 = header 6) (d : BitVec 8) (dop : BitVec 4) :
      Executed w s { s with d := d, dop := dop }
  | group1 (head : w.extractLsb' 13 19 = header 7) (b11 : w.getLsbD 11 = false) (f : Opr1) :
      Executed w s (s.group1Actions f)
  | group2 (head : w.extractLsb' 13 19 = header 7) (b11 : w.getLsbD 11 = true) (b0 : w.getLsbD 0 = false)
      (r : Bool) : Executed w s (s.group2Actions r (opr2Of w))
  | group3 (head : w.extractLsb' 13 19 = header 7) (b11 : w.getLsbD 11 = true) (b0 : w.getLsbD 0 = true)
      (f : Opr3) (i : Bool) {t : State} (ht : (s.acMqPart f).performEop f.eop i = .next t) : Executed w s t

theorem executed_of_exec {w : Word} {i : Instr} {s t : State} (hi : decode w = .ok i) (ht : exec i s = .next t) :
    Executed w s t := by
  cases (decode_ok_iff w i).mp hi with
  | imm top => cases ht; exact .imm top _
  | and head | tad head | dca head | isz head | jms head | jmp head =>
    exact .mri _ head (by decide) _ rfl hi ht
  | iot head =>
    unfold exec execIot at ht
    dsimp only at ht
    split at ht
    · cases ht
    · cases ht; exact .iot head _ _
  | group1 head b11 =>
    cases (exec_nameGroup1 _ _ s).symm.trans ht
    exact .group1 head b11 _
  | group2 head b11 b0 =>
    cases (exec_nameGroup2 _ _ _ s).symm.trans ht
    exact .group2 head b11 b0 _
  | group3 head b11 b0 =>
    exact .group3 head b11 b0 _ _ ((exec_nameGroup3 _ _ _ s).symm.trans ht)

/-! ### The frames, class by class -/

/-- The state without the registers a memory-referencing instruction writes. -/
def State.restOfMri (s : State) : State := { s with ac := 0, l := false, pc := 0, skip := false, y := 0, mem := [] }

theorem writeWord_restOfMri (s : State) (a v : Word) : (s.writeWord a v).restOfMri = s.restOfMri := by
  rw [State.writeWord_eq]
  rfl

theorem effectiveAddress_restOfMri (i p : Bool) (off : BitVec 11) (s : State) :
    (s.effectiveAddress i p off).restOfMri = s.restOfMri := by
  rcases s.effectiveAddress_cases i p off with ⟨-, h⟩ | ⟨-, -, h⟩ | ⟨-, -, h⟩
  · rw [h]; rfl
  · rw [h]; rfl
  · rw [h]; exact writeWord_restOfMri s _ _

theorem exec_mri_rest {n : Instr} (hn : isMri n = true) {s t : State} (ht : exec n s = .next t) :
    t.restOfMri = s.restOfMri := by
  cases n with
  | and i p off | tad i p off | jmp i p off => cases ht; exact effectiveAddress_restOfMri i p off s
  | dca i p off | jms i p off =>
    cases ht
    exact (writeWord_restOfMri _ _ _).trans (effectiveAddress_restOfMri i p off s)
  | isz i p off =>
    cases ht
    rw [State.incrementAtY_eq]
    exact (writeWord_restOfMri _ _ _).trans (effectiveAddress_restOfMri i p off s)
  | _ => cases hn

/-- The memory in canonical form and within H. -/
structure State.GoodMem (s : State) : Prop where
  wf : s.mem.wf = true
  within : s.listsOnlyExisting = true

theorem State.GoodMem.writeWord {s : State} (h : s.GoodMem) (a v : Word) : (s.writeWord a v).GoodMem :=
  ⟨s.writeWord_wf a v h.wf, s.writeWord_listsOnlyExisting a v h.within⟩

theorem State.GoodMem.effectiveAddress {s : State} (h : s.GoodMem) (i p : Bool) (off : BitVec 11) :
    (s.effectiveAddress i p off).GoodMem :=
  ⟨s.effectiveAddress_wf i p off h.wf, s.effectiveAddress_listsOnlyExisting i p off h.within⟩

/-- Goodness of the memory is a matter of the memory and H alone. -/
theorem State.GoodMem.congr {s t : State} (h : s.GoodMem) (hmem : t.mem = s.mem) (hh : t.h = s.h) : t.GoodMem := by
  refine ⟨hmem ▸ h.wf, ?_⟩
  rw [State.listsOnlyExisting, hmem, hh]
  exact h.within

theorem exec_mri_goodMem {n : Instr} (hn : isMri n = true) {s t : State} (ht : exec n s = .next t)
    (h : s.GoodMem) : t.GoodMem := by
  cases n with
  | and i p off | tad i p off | jmp i p off => cases ht; exact (h.effectiveAddress i p off).congr rfl rfl
  | dca i p off | jms i p off => cases ht; exact ((h.effectiveAddress i p off).writeWord _ _).congr rfl rfl
  | isz i p off =>
    cases ht
    rw [State.incrementAtY_eq]
    exact ((h.effectiveAddress i p off).writeWord _ _).congr rfl rfl
  | _ => cases hn

theorem performEop_goodMem {e : Eop} {i : Bool} {s t : State} (ht : s.performEop e i = .next t) (h : s.GoodMem) :
    t.GoodMem := by
  by_cases he : e = .dst
  · subst he
    cases ht
    have hfetched : ((s.selectEop .dst).operandFetch i).GoodMem := by
      rw [State.operandFetch_eq]
      exact h.congr rfl rfl
    exact (hfetched.writeWord _ _).writeWord _ _
  · have hrest := performEop_rest ht
    have hh := congrArg State.h hrest
    have hmem := congrArg State.mem hrest
    simp only [State.restOfEop, if_neg he] at hmem
    exact h.congr hmem hh

/-! ### The frame of a step -/

/-- What no instruction writes: BASE, SBASE and the parameters. -/
def State.fixed (s : State) : Word × Word × Word × List DeviceOp := (s.base, s.sbase, s.h, s.devices)

section
variable {w : Word} {s t : State}

theorem Executed.fixed_eq (h : Executed w s t) : t.fixed = s.fixed := by
  cases h with
  | imm top v => rfl
  | mri op head notOperate n hn hdecode ht =>
    have hrest := congrArg State.fixed (exec_mri_rest hn ht)
    exact hrest
  | iot head d dop => rfl
  | group1 head b11 f =>
    have hrest := congrArg State.fixed (group1Actions_rest f s)
    exact hrest
  | group2 head b11 b0 r => rw [group2Actions_eq]; rfl
  | group3 head b11 b0 f i ht =>
    have hpart := congrArg State.fixed (acMqPart_rest .none0 f s)
    have hrest := congrArg State.fixed (performEop_rest ht)
    exact hrest.trans hpart

theorem Executed.goodMem (h : Executed w s t) (hs : s.GoodMem) : t.GoodMem := by
  cases h with
  | imm top v => exact hs.congr rfl rfl
  | mri op head notOperate n hn hdecode ht => exact exec_mri_goodMem hn ht hs
  | iot head d dop => exact hs.congr rfl rfl
  | group1 head b11 f =>
    have hrest := group1Actions_rest f s
    have hmem := congrArg State.mem hrest
    have hh := congrArg State.h hrest
    exact hs.congr hmem hh
  | group2 head b11 b0 r => rw [group2Actions_eq]; exact hs.congr rfl rfl
  | group3 head b11 b0 f i ht =>
    have hrest := acMqPart_rest .none0 f s
    have hmem := congrArg State.mem hrest
    have hh := congrArg State.h hrest
    exact performEop_goodMem ht (hs.congr hmem hh)

end

/-- A step that goes on leaves a state alone, skips a word, or executes one. -/
theorem step_executed_cases {s t : State} (h : step s = .next t) :
    (s.run = false ∧ t = s) ∨ (s.run = true ∧ s.skip = true ∧ t = s.fetch.skipFetched) ∨
    (s.run = true ∧ s.skip = false ∧ Executed (s.readWord s.pc) s.fetch t) := by
  rcases step_cases s t h with h | h | ⟨hrun, hskip, i, hi, ht⟩
  · exact .inl h
  · exact .inr (.inl h)
  · exact .inr (.inr ⟨hrun, hskip, executed_of_exec hi ht⟩)

theorem step_fixed {s t : State} (h : step s = .next t) : t.fixed = s.fixed := by
  rcases step_executed_cases h with ⟨-, rfl⟩ | ⟨-, -, rfl⟩ | ⟨-, -, hexec⟩
  · rfl
  · rfl
  · exact hexec.fixed_eq

theorem step_goodMem {s t : State} (h : step s = .next t) (hs : s.GoodMem) : t.GoodMem := by
  rcases step_executed_cases h with ⟨-, rfl⟩ | ⟨-, -, rfl⟩ | ⟨-, -, hexec⟩
  · exact hs
  · exact hs.congr rfl rfl
  · exact hexec.goodMem (hs.congr rfl rfl)

/-- Settles O13: the memory stays good through every write, and nothing writes H, BASE or SBASE. -/
theorem everyStepKeepsTheInvariant : Obligations.EveryStepKeepsTheInvariant := by
  intro s t hinv hstep
  obtain ⟨hwf, hwithin, hlegal, hbase, hsbase⟩ := s.inv_iff.mp hinv
  obtain ⟨hwf', hwithin'⟩ := step_goodMem hstep ⟨hwf, hwithin⟩
  have hfixed := step_fixed hstep
  simp only [State.fixed, Prod.mk.injEq] at hfixed
  obtain ⟨hb, hsb, hh, -⟩ := hfixed
  rw [State.inv_iff, hb, hsb, hh]
  exact ⟨hwf', hwithin', hlegal, hbase, hsbase⟩

/-! ### PC (R124) -/

theorem performEop_pc {e : Eop} {i : Bool} {s t : State} (h : s.performEop e i = .next t) :
    t.pc = if takesOperand e then nextAddress s.h s.pc else s.pc := by
  by_cases he : takesOperand e = true
  · rw [if_pos he]
    cases e with
    | muy | dad => cases h; rw [State.operandFetch_eq]; rfl
    | dvi =>
      cases h
      obtain ⟨a, m, hdivide⟩ := ((s.selectEop .dvi).operandFetch i).divide_writes
      rw [hdivide, State.operandFetch_eq]
      rfl
    | dst => cases h; rw [State.doubleStore, State.writeWord_pc, State.writeWord_pc, State.operandFetch_eq]; rfl
    | _ => cases he
  · have hpc := congrArg State.pc (performEop_rest h)
    simp only [State.restOfEop, if_neg he] at hpc
    rw [if_neg he, hpc]
    rfl

/-- Where no jump is executed, PC stays or advances over an operand word. -/
theorem Executed.pc_le {w : Word} {s t : State} (h : Executed w s t)
    (hjump : ∀ i, decode w = .ok i → isJump i = false) (hs : s.pc.toNat ≤ s.h.toNat) : t.pc.toNat ≤ s.h.toNat := by
  cases h with
  | imm top v => exact hs
  | mri op head notOperate n hn hdecode ht =>
    obtain ⟨t', ht', -, -, -, -, -, -, hpc⟩ := exec_mri_next hn s
    cases ht.symm.trans ht'
    rw [hpc (hjump n hdecode)]
    exact hs
  | iot head d dop => exact hs
  | group1 head b11 f =>
    have hpc := congrArg State.pc (group1Actions_rest f s)
    exact hpc ▸ hs
  | group2 head b11 b0 r => rw [group2Actions_eq]; exact hs
  | group3 head b11 b0 f i ht =>
    have hrest := acMqPart_rest .none0 f s
    have hpc := congrArg State.pc hrest
    have hh := congrArg State.h hrest
    rw [performEop_pc ht, show (s.acMqPart f).pc = s.pc from hpc, show (s.acMqPart f).h = s.h from hh]
    split
    · exact nextAddress_le _ _
    · exact hs

/-- Settles O7: the fetch advances PC to an address that exists, and what is then executed keeps it or advances it
over an operand word. -/
theorem pcStaysWithinMemoryUnlessJump : Obligations.PcStaysWithinMemoryUnlessJump := by
  intro s t hrun hstep hjump
  have hfixed := step_fixed hstep
  simp only [State.fixed, Prod.mk.injEq] at hfixed
  obtain ⟨-, -, hh, -⟩ := hfixed
  rw [hh]
  have hfetched : s.fetch.pc.toNat ≤ s.fetch.h.toNat := nextAddress_le s.h s.pc
  rcases step_executed_cases hstep with ⟨hhalted, -⟩ | ⟨-, -, rfl⟩ | ⟨-, hskip, hexec⟩
  · rw [hrun] at hhalted; cases hhalted
  · exact hfetched
  · rcases hjump with hskipped | hjump
    · rw [hskip] at hskipped; cases hskipped
    · exact hexec.pc_le hjump hfetched

/-! ### RUN (R198) -/

/-- A group 2 word with IR[1] = 1, by its bits (R98). -/
def haltingWord (w : Word) : Prop :=
  w.toNat < 2 ^ 16 ∧ w.extractLsb' 13 3 = 7 ∧ w.getLsbD 11 = true ∧ w.getLsbD 1 = true ∧ w.getLsbD 0 = false

theorem Executed.halted_iff {w : Word} {s t : State} (h : Executed w s t) (hrun : s.run = true) :
    t.run = false ↔ haltingWord w := by
  have running {r : Bool} (hr : r = s.run) : ¬ r = false := by rw [hr, hrun]; decide
  cases h with
  | imm top v =>
    refine iff_of_false (running rfl) fun hw => ?_
    have := hw.1
    have := (getLsbD_31_iff w).mp top
    omega
  | mri op head notOperate n hn hdecode ht =>
    refine iff_of_false (running (congrArg State.run (exec_mri_rest hn ht) :)) fun hw => ?_
    exact notOperate ((header_fields head).2.symm.trans hw.2.1)
  | iot head d dop =>
    refine iff_of_false (running rfl) fun hw => ?_
    exact absurd ((header_fields head).2.symm.trans hw.2.1) (by decide)
  | group1 head b11 f =>
    refine iff_of_false (running (congrArg State.run (group1Actions_rest f s) :)) fun hw => ?_
    exact absurd (b11.symm.trans hw.2.2.1) (by decide)
  | group2 head b11 b0 r =>
    obtain ⟨hlt, hop⟩ := header_fields head
    have hhalt : (s.group2Actions r (opr2Of w)).run = if w.getLsbD 1 then false else s.run := by
      rw [group2Actions_eq]
      rfl
    rw [hhalt, hrun]
    cases h1 : w.getLsbD 1 with
    | false => exact iff_of_false (by decide) fun hw => absurd (h1.symm.trans hw.2.2.2.1) (by decide)
    | true => exact iff_of_true rfl ⟨hlt, hop, b11, h1, b0⟩
  | group3 head b11 b0 f i ht =>
    have hpart := congrArg State.run (acMqPart_rest .none0 f s)
    have hrest := congrArg State.run (performEop_rest ht)
    refine iff_of_false (running (hrest.trans hpart)) fun hw => ?_
    exact absurd (b0.symm.trans hw.2.2.2.2) (by decide)

/-- Settles O9: of the classes of words only group 2 writes RUN, and it clears RUN by IR[1]. -/
theorem onlyHltStopsTheProcessor : Obligations.OnlyHltStopsTheProcessor := by
  intro s t hrun hstep
  rcases step_executed_cases hstep with ⟨hhalted, -⟩ | ⟨-, hskip, rfl⟩ | ⟨-, hskip, hexec⟩
  · rw [hrun] at hhalted; cases hhalted
  · have hrunning : s.fetch.skipFetched.run = true := hrun
    rw [hrunning, hskip]
    exact iff_of_false (by decide) fun h => absurd h.1 (by decide)
  · rw [hskip]
    exact (hexec.halted_iff hrun).trans (iff_and_self.mpr fun _ => rfl)

end Sys2Proof.Machine
end

section
/-! PROOFS. NMI (R223, D12): the stopping condition as a range of numbers, and how many shifts reach it. -/

namespace Sys2Proof.Machine

/-! ### The stopping condition and the shift as arithmetic -/

/-- The double words NMI stops at: the two top bits differ, or it is 0xC0000000:00000000. -/
def nmiStops (x : Nat) : Prop := 2 ^ 62 ≤ x ∧ x ≤ 3 * 2 ^ 62

theorem State.normalised_iff (s : State) : s.normalised = true ↔ nmiStops s.double := by
  have hac := s.ac.isLt
  have hmq := s.mq.isLt
  have h31 := getLsbD_31_iff s.ac
  have h30 := getLsbD_30_iff s.ac
  have hlast : (s.ac == 0xC0000000 && s.mq == 0) = true ↔ s.ac.toNat = 0xC0000000 ∧ s.mq.toNat = 0 := by
    rw [Bool.and_eq_true, beq_iff_eq, beq_iff_eq, ← BitVec.toNat_inj, ← BitVec.toNat_inj]
    rfl
  rw [State.normalised, Bool.or_eq_true, bne_iff_ne, hlast, nmiStops, State.double, Ne, Bool.eq_iff_iff, h31, h30]
  omega

theorem State.shiftLeft1_double (s : State) : s.shiftLeft1.double = s.double * 2 % 2 ^ 64 := by
  have hdouble := s.triple_mod
  rw [← State.triple_mod, State.shiftLeft1_triple]
  omega

theorem State.shiftLeft1_l (s : State) : s.shiftLeft1.l = decide (2 ^ 63 ≤ s.double) := by
  have hmq := s.mq.isLt
  have hl : s.shiftLeft1.l = s.ac.getLsbD 31 := rfl
  rw [hl, Bool.eq_iff_iff, getLsbD_31_iff, decide_eq_true_iff, State.double]
  omega

/-! ### Several passes of the loop -/

theorem repeatN_normaliseStep_double (n : Nat) (s : State) :
    (State.repeatN n State.normaliseStep s).double = s.double * 2 ^ n % 2 ^ 64 := by
  induction n generalizing s with
  | zero => rw [State.repeatN_zero, Nat.pow_zero, Nat.mul_one, Nat.mod_eq_of_lt s.double_lt]
  | succ n ih =>
    have hstep : s.normaliseStep.double = s.double * 2 % 2 ^ 64 := s.shiftLeft1_double
    rw [State.repeatN_succ, ih, hstep, Nat.mod_mul_mod, Nat.mul_assoc, ← Nat.pow_succ']

theorem repeatN_normaliseStep_sc (n : Nat) (s : State) :
    (State.repeatN n State.normaliseStep s).sc = s.sc + BitVec.ofNat 7 n := by
  induction n with
  | zero => exact (BitVec.add_zero s.sc).symm
  | succ n ih =>
    have hstep (r : State) : r.normaliseStep.sc = r.sc + 1 := rfl
    rw [State.repeatN_succ_last, hstep, ih, BitVec.ofNat_add, BitVec.add_assoc]
    rfl

theorem repeatN_normaliseStep_l (n : Nat) (s : State) :
    (State.repeatN (n + 1) State.normaliseStep s).l = decide (2 ^ 63 ≤ s.double * 2 ^ n % 2 ^ 64) := by
  rw [State.repeatN_succ_last, ← repeatN_normaliseStep_double]
  exact State.shiftLeft1_l _

/-- The state without the registers NMI writes besides EOP. -/
def State.restOfNmi (s : State) : State := { s with ac := 0, mq := 0, l := false, sc := 0 }

theorem repeatN_normaliseStep_rest (n : Nat) (s : State) :
    (State.repeatN n State.normaliseStep s).restOfNmi = s.restOfNmi :=
  repeatN_keeps (f := State.normaliseStep) (fun _ => rfl) n s

/-! ### Every non-zero double word reaches the range within 62 shifts -/

theorem exists_shift_to_range {x : Nat} (hpos : 0 < x) (hlt : x < 2 ^ 62) :
    ∃ n ≤ 62, 2 ^ 62 ≤ x * 2 ^ n ∧ x * 2 ^ n < 2 ^ 63 := by
  have hlog : x.log2 < 62 := (Nat.log2_lt (by omega)).mpr hlt
  have hsplit : 2 ^ x.log2 * 2 ^ (62 - x.log2) = 2 ^ 62 := by
    rw [← Nat.pow_add, Nat.add_sub_of_le (by omega)]
  refine ⟨62 - x.log2, by omega, ?_, ?_⟩
  · exact hsplit ▸ Nat.mul_le_mul_right _ (Nat.log2_self_le (by omega))
  · have htop : 2 ^ 63 = 2 ^ (x.log2 + 1) * 2 ^ (62 - x.log2) :=
      calc 2 ^ 63
        _ = 2 * (2 ^ x.log2 * 2 ^ (62 - x.log2)) := by rw [hsplit]; rfl
        _ = 2 ^ (x.log2 + 1) * 2 ^ (62 - x.log2) := by rw [← Nat.mul_assoc, ← Nat.pow_succ']
    rw [htop]
    exact Nat.mul_lt_mul_of_pos_right Nat.lt_log2_self (by positivity)

/-- A small double word grows into the lower half of the range; a large one, seen as the distance from 2^64, grows
away from 2^64 into the upper half. -/
theorem exists_nmiStops {x : Nat} (hpos : 0 < x) (hlt : x < 2 ^ 64) :
    ∃ n ≤ 62, nmiStops (x * 2 ^ n % 2 ^ 64) := by
  rcases Nat.lt_or_ge x (2 ^ 62) with hsmall | hge
  · obtain ⟨n, hn, hlow, hhigh⟩ := exists_shift_to_range hpos hsmall
    refine ⟨n, hn, ?_⟩
    rw [Nat.mod_eq_of_lt (by omega), nmiStops]
    omega
  · rcases Nat.lt_or_ge (3 * 2 ^ 62) x with hlarge | hle
    · obtain ⟨n, hn, hlow, hhigh⟩ := exists_shift_to_range (x := 2 ^ 64 - x) (by omega) (by omega)
      have hsum : x * 2 ^ n + (2 ^ 64 - x) * 2 ^ n = 2 ^ 64 * 2 ^ n := by
        rw [← Nat.add_mul, Nat.add_sub_of_le hlt.le]
      refine ⟨n, hn, ?_⟩
      rw [nmiStops]
      generalize x * 2 ^ n = p at *
      generalize (2 ^ 64 - x) * 2 ^ n = q at *
      generalize 2 ^ n = m at *
      omega
    · refine ⟨0, by omega, ?_⟩
      rw [Nat.pow_zero, Nat.mul_one, Nat.mod_eq_of_lt hlt]
      exact ⟨hge, hle⟩

/-! ### The instruction -/

theorem exec_nmi (i : Bool) (u : BitVec 3) (s : State) : exec (.nmi i u) s = (s.selectEop .nmi).normalise := rfl

theorem normalise_of_some {s t : State} (h : State.normaliseLoop Config.nmiShiftBound (s.setSc 0) = some t) :
    s.normalise = .next t := by
  rw [State.normalise, h]

theorem normalise_of_none {s : State} (h : State.normaliseLoop Config.nmiShiftBound (s.setSc 0) = none) :
    s.normalise = .fault .nmiNeverEnds := by
  rw [State.normalise, h]

/-- A pass meets the stopping condition where the shifted double word lies in the range. -/
theorem repeatN_normalised_iff (k : Nat) (s : State) :
    (State.repeatN k State.normaliseStep s).normalised = true ↔ nmiStops (s.double * 2 ^ k % 2 ^ 64) := by
  rw [State.normalised_iff, repeatN_normaliseStep_double]

/-- NMI of a double word that is not zero stops at the first pass that lies in the range. -/
theorem normalise_of_ne_zero {s : State} (h : s.double ≠ 0) :
    ∃ n ≤ 62, s.normalise = .next (State.repeatN n State.normaliseStep (s.setSc 0)) ∧
      nmiStops (s.double * 2 ^ n % 2 ^ 64) ∧ ∀ k < n, ¬ nmiStops (s.double * 2 ^ k % 2 ^ 64) := by
  have hdouble : (s.setSc 0).double = s.double := rfl
  obtain ⟨m, hm, hstops⟩ := exists_nmiStops (Nat.pos_of_ne_zero h) s.double_lt
  have hreached : (State.repeatN m State.normaliseStep (s.setSc 0)).normalised = true :=
    (repeatN_normalised_iff m _).mpr hstops
  cases hloop : State.normaliseLoop Config.nmiShiftBound (s.setSc 0) with
  | none =>
    have hnever := State.normaliseLoop_none _ _ hloop m (hm.trans (by decide))
    rw [hreached] at hnever
    cases hnever
  | some t =>
    obtain ⟨n, -, rfl, hn, hfirst⟩ := State.normaliseLoop_some _ _ _ hloop
    have hnot : ∀ k < n, ¬ nmiStops (s.double * 2 ^ k % 2 ^ 64) := fun k hk hstop => by
      have hpass := (repeatN_normalised_iff k (s.setSc 0)).mpr hstop
      rw [hfirst k hk] at hpass
      cases hpass
    have hle : n ≤ m := Nat.le_of_not_lt fun hlt => hnot m hlt hstops
    exact ⟨n, hle.trans hm, normalise_of_some hloop, (repeatN_normalised_iff n (s.setSc 0)).mp hn, hnot⟩

theorem normalise_of_zero {s : State} (h : s.double = 0) : s.normalise = .fault .nmiNeverEnds := by
  cases hloop : State.normaliseLoop Config.nmiShiftBound (s.setSc 0) with
  | none => exact normalise_of_none hloop
  | some t =>
    obtain ⟨n, -, rfl, hn, -⟩ := State.normaliseLoop_some _ _ _ hloop
    have hdouble : (s.setSc 0).double = 0 := h
    have hstops := (repeatN_normalised_iff n (s.setSc 0)).mp hn
    rw [hdouble, Nat.zero_mul, nmiStops] at hstops
    omega

/-- Settles O49: 0 shifted stays 0, which is not in the range. -/
theorem nmiOfZeroIsStuck : Obligations.NmiOfZeroIsStuck := by
  intro s i u hac hmq
  exact (exec_nmi i u s).trans (normalise_of_zero ((s.selectEop .nmi).double_eq_zero_iff.mpr ⟨hac, hmq⟩))

/-- Settles O48: the first pass in the range exists within 62 shifts, and SC and L are what the passes so far left. -/
theorem nmiNormalises : Obligations.NmiNormalises := by
  intro s i u
  dsimp only
  refine ⟨rfl, fun hne => ?_⟩
  have hdouble : (s.selectEop .nmi).double ≠ 0 := fun h => by
    obtain ⟨hac, hmq⟩ := s.double_eq_zero_iff.mp h
    exact hne.elim (· hac) (· hmq)
  obtain ⟨n, hn, hexec, hstops, hnot⟩ := normalise_of_ne_zero hdouble
  have hsc := repeatN_normaliseStep_sc n ((s.selectEop .nmi).setSc 0)
  have hrest := repeatN_normaliseStep_rest n ((s.selectEop .nmi).setSc 0)
  refine ⟨n, hn, _, (exec_nmi i u s).trans hexec, ?_, repeatN_normaliseStep_double n _, hstops, hnot, ?_, ?_, ?_⟩
  · rw [hsc]
    have hzero : ((s.selectEop .nmi).setSc 0).sc = 0#7 := rfl
    rw [hzero, BitVec.zero_add, BitVec.toNat_ofNat]
    exact Nat.mod_eq_of_lt (by omega)
  · rintro rfl
    rfl
  · intro hpos
    obtain ⟨k, rfl⟩ := Nat.exists_eq_succ_of_ne_zero (by omega : n ≠ 0)
    exact repeatN_normaliseStep_l k _
  · exact congrArg (fun r : State => { r with ac := s.ac, mq := s.mq, l := s.l, sc := s.sc }) hrest

end Sys2Proof.Machine
end

section
/-! PROOFS. When a step stops (R250, R266): the three cases, and that every other instruction completes. -/

namespace Sys2Proof.Machine

/-! ### Group 3 -/

theorem performEop_completes {e : Eop} (he : e ≠ .nmi) (i : Bool) (s : State) : completes (s.performEop e i) := by
  cases e with
  | nmi => exact absurd rfl he
  | _ => exact ⟨_, rfl⟩

/-- NMI of the double word zero is the one EOP operation that stops. -/
theorem performEop_stops (e : Eop) (i : Bool) (s : State) :
    completes (s.performEop e i) ∨
      (e = .nmi ∧ s.ac = 0 ∧ s.mq = 0 ∧ s.performEop e i = .fault .nmiNeverEnds) := by
  by_cases he : e = .nmi
  · subst he
    by_cases hzero : s.double = 0
    · obtain ⟨hac, hmq⟩ := s.double_eq_zero_iff.mp hzero
      exact .inr ⟨rfl, hac, hmq, normalise_of_zero (s := s.selectEop .nmi) hzero⟩
    · obtain ⟨n, -, hnext, -⟩ := normalise_of_ne_zero (s := s.selectEop .nmi) hzero
      exact .inl ⟨_, hnext⟩
  · exact .inl (performEop_completes he i s)

/-- A group 3 set with NMI is written by its class row, or it is NMI alone. -/
theorem nameGroup3_of_nmi {f : Opr3} (hf : f.eop = .nmi) (i : Bool) (u : BitVec 3) :
    nameGroup3 f i u = .group3 f i u ∨ (f = { eop := .nmi } ∧ nameGroup3 f i u = .nmi i u) := by
  obtain ⟨cla, mq, eop⟩ := f
  obtain rfl : eop = .nmi := hf
  cases cla
  case true => cases mq <;> exact .inl rfl
  case false =>
    cases mq with
    | noMq => exact .inr ⟨rfl, rfl⟩
    | mqa | mql | swp => exact .inl rfl

/-- The AC/MQ part acts on AC and MQ as the fetch found them. -/
theorem acMqPart_fetch (f : Opr3) (s : State) :
    (s.fetch.acMqPart f).ac = (s.acMqPart f).ac ∧ (s.fetch.acMqPart f).mq = (s.acMqPart f).mq := by
  rw [State.fetch_eq]
  obtain ⟨cla, mq, eop⟩ := f
  cases cla <;> cases mq <;> exact ⟨rfl, rfl⟩

theorem exec_nameGroup3_stops (f : Opr3) (i : Bool) (u : BitVec 3) (s : State) :
    completes (exec (nameGroup3 f i u) s) ∨
      (f.eop = .nmi ∧ (s.acMqPart f).ac = 0 ∧ (s.acMqPart f).mq = 0 ∧
        exec (nameGroup3 f i u) s = .fault .nmiNeverEnds) := by
  rw [exec_nameGroup3]
  exact performEop_stops f.eop i (s.acMqPart f)

/-! ### The step -/

theorem exec_iot_defined {d : BitVec 8} {dop : BitVec 4} {s : State} (h : (d, dop) ∈ s.devices) (x : Bool) :
    exec (.iot x d dop) s = .refused (.deviceUndescribed d dop) :=
  if_pos (List.contains_iff_mem.mpr h)

theorem exec_iot_undefined {d : BitVec 8} {dop : BitVec 4} {s : State} (h : (d, dop) ∉ s.devices) (x : Bool) :
    exec (.iot x d dop) s = .next { s with d := d, dop := dop } :=
  if_neg (mt List.contains_iff_mem.mp h)

theorem exec_mri_completes {n : Instr} (hn : isMri n = true) (s : State) : completes (exec n s) := by
  obtain ⟨t, ht, -⟩ := exec_mri_next hn s
  exact ⟨t, ht⟩

theorem exec_iot_stops (x : Bool) (d : BitVec 8) (dop : BitVec 4) (s : State) :
    completes (exec (.iot x d dop) s) ∨
      ((d, dop) ∈ s.devices ∧ exec (.iot x d dop) s = .refused (.deviceUndescribed d dop)) := by
  by_cases h : (d, dop) ∈ s.devices
  · exact .inr ⟨h, exec_iot_defined h x⟩
  · exact .inl ⟨_, exec_iot_undefined h x⟩

/-- Settles O29: the device set is tested first. -/
theorem iotOfDefinedDeviceIsRefused : Obligations.IotOfDefinedDeviceIsRefused :=
  fun x _ _ _ h => exec_iot_defined h x

/-- The word of an IOT, by its two fields. -/
theorem encode_iot_toNat (d : BitVec 8) (dop : BitVec 4) :
    (encode (.iot false d dop)).toNat = 0xC000 + d.toNat * 16 + dop.toNat := by
  have hword : encode (.iot false d dop) = ((0#16 ++ 6#3 ++ bit false) ++ d) ++ dop := rfl
  have hhead : (0#16 ++ 6#3 ++ bit false).toNat = 12 := rfl
  rw [hword, toNat_append, toNat_append, hhead]
  ring

/-- Settles O28: the device set decides, and what is left of an undefined pair is setting D and DOP. -/
theorem iotOfUnknownDeviceDoesNothing : Obligations.IotOfUnknownDeviceDoesNothing :=
  fun x d dop _ => ⟨encode_iot_toNat d dop, fun h => exec_iot_undefined h x⟩

/-- Settles O10: each class of words completes, but for a defined device and for NMI of zero, and the rest of the
words are reserved. -/
theorem stepStopsOnlyInThreeCases : Obligations.StepStopsOnlyInThreeCases := by
  intro s
  cases hrun : s.run with
  | false => exact .inl ⟨s, step_halted hrun⟩
  | true =>
    cases hskip : s.skip with
    | true => exact .inl ⟨_, step_skipped hrun hskip⟩
    | false =>
      cases hdecode : decode (s.readWord s.pc) with
      | error e =>
        rcases decode_cases (s.readWord s.pc) with ⟨-, -, h⟩ | ⟨-, -, h⟩ | ⟨hlow, hhigh, h⟩
        · cases hdecode.symm.trans h
        · cases hdecode.symm.trans h
        · exact .inr ⟨rfl, rfl, .inl ⟨hlow, hhigh, step_reserved hrun hskip h⟩⟩
      | ok n =>
        have hstep := step_decoded hrun hskip hdecode
        cases (decode_ok_iff _ n).mp hdecode with
        | imm top => exact .inl ⟨_, hstep.trans (exec_imm _ _)⟩
        | and head | tad head | dca head | isz head | jms head | jmp head =>
          rw [hstep]
          exact .inl (exec_mri_completes rfl _)
        | iot head =>
          rw [hstep]
          rcases exec_iot_stops ((s.readWord s.pc).getLsbD 12) ((s.readWord s.pc).extractLsb' 4 8)
            ((s.readWord s.pc).extractLsb' 0 4) s.fetch with hcompletes | ⟨hdevice, hrefused⟩
          · exact .inl hcompletes
          · exact .inr ⟨rfl, rfl, .inr (.inl ⟨_, _, _, rfl, hdevice, hrefused⟩)⟩
        | group1 head b11 => exact .inl ⟨_, hstep.trans (exec_nameGroup1 _ _ _)⟩
        | group2 head b11 b0 => exact .inl ⟨_, hstep.trans (exec_nameGroup2 _ _ _ _)⟩
        | group3 head b11 b0 =>
          rw [hstep]
          rcases exec_nameGroup3_stops (opr3Of (s.readWord s.pc)) ((s.readWord s.pc).getLsbD 12)
            (unassigned3 (s.readWord s.pc)) s.fetch with hcompletes | ⟨hf, hac, hmq, hfault⟩
          · exact .inl hcompletes
          · rw [(acMqPart_fetch _ s).1] at hac
            rw [(acMqPart_fetch _ s).2] at hmq
            refine .inr ⟨rfl, rfl, .inr (.inr ⟨_, (s.readWord s.pc).getLsbD 12, unassigned3 (s.readWord s.pc), ?_,
              hf, hac, hmq, hfault⟩)⟩
            rcases nameGroup3_of_nmi hf _ _ with hname | ⟨halone, hname⟩
            · exact .inl (congrArg Except.ok hname)
            · exact .inr ⟨halone, congrArg Except.ok hname⟩

end Sys2Proof.Machine
end

section
/-! PROOFS. What a step depends on (R27, R28, R41): the page selectors never, and the registers of the explanation
not for anything a step carries. Both are one statement about what an instruction sees of the state. -/

namespace Sys2Proof.Machine

/-! ### What an instruction sees -/

/-- The state without BASE and SBASE, and where `explanation` is false also without the registers of the explanation
but Y, which the instructions do read (R41). -/
def State.view (explanation : Bool) (s : State) : State :=
  { s with
    base := 0, sbase := 0
    ir := if explanation then s.ir else 0
    op := if explanation then s.op else 0
    d := if explanation then s.d else 0
    dop := if explanation then s.dop else 0
    b := if explanation then s.b else false
    eop := if explanation then s.eop else 0 }

/-- What `f` leaves of the view depends on the view alone. -/
def Factors (k : Bool) (f : State → State) : Prop := ∀ s : State, (f s).view k = (f (s.view k)).view k

section
variable {k : Bool} {f g : State → State}

theorem Factors.comp (hg : Factors k g) (hf : Factors k f) : Factors k fun s => g (f s) := fun s =>
  calc (g (f s)).view k
    _ = (g ((f s).view k)).view k := hg (f s)
    _ = (g ((f (s.view k)).view k)).view k := by rw [hf s]
    _ = (g (f (s.view k))).view k := (hg _).symm

theorem State.view_view (k : Bool) (s : State) : (s.view k).view k = s.view k := by cases k <;> rfl

theorem Factors.id : Factors k fun s => s := fun s => (s.view_view k).symm

theorem Factors.whenBit (hf : Factors k f) (b : Bool) : Factors k fun s => s.whenBit b f := by
  cases b with
  | false => exact Factors.id
  | true => exact hf

theorem Factors.repeatN (hf : Factors k f) (n : Nat) : Factors k (State.repeatN n f) := by
  induction n with
  | zero => exact Factors.id
  | succ n ih => exact ih.comp hf

/-- The repetition count SC is in the view. -/
theorem Factors.shiftBySc (hf : Factors k f) : Factors k (State.shiftBySc f) := fun s =>
  congrArg (State.setSc · 0) (hf.repeatN s.sc.toNat s)

/-! ### The micro-operations -/

theorem factors_effectiveAddress (i p : Bool) (off : BitVec 11) : Factors k (State.effectiveAddress i p off) := by
  intro s
  cases i with
  | false => cases k <;> rfl
  | true =>
    by_cases h : inAutoIncrement (initialY p off s.y) = true
    · rw [s.effectiveAddress_autoIncrement h, (s.view k).effectiveAddress_autoIncrement h, State.writeWord_eq,
        State.writeWord_eq]
      cases k <;> rfl
    · rw [s.effectiveAddress_indirect h, (s.view k).effectiveAddress_indirect h]
      cases k <;> rfl

theorem factors_operandFetch (i : Bool) : Factors k (State.operandFetch i) := by
  intro s
  rw [State.operandFetch_eq, State.operandFetch_eq]
  cases k <;> rfl

theorem factors_divide : Factors k State.divide := by
  intro s
  cases h : s.divideOverflows with
  | true =>
    rw [divide_of_overflow h, divide_of_overflow (s := s.view k) h]
    cases k <;> rfl
  | false =>
    have hdouble : (s.view k).double = s.double := rfl
    rw [divide_of_no_overflow h, divide_of_no_overflow (s := s.view k) h, hdouble]
    cases k <;> rfl

theorem factors_group1Actions (f : Opr1) : Factors k (State.group1Actions f) := by
  have hcla : Factors k State.clearAc := fun _ => by cases k <;> rfl
  have hcll : Factors k State.clearLink := fun _ => by cases k <;> rfl
  have hcma : Factors k State.complementAc := fun _ => by cases k <;> rfl
  have hcml : Factors k State.complementLink := fun _ => by cases k <;> rfl
  have hiac : Factors k State.incrementAc := fun _ => by cases k <;> rfl
  have hrot : Factors k (State.rotSelected f.rot) := fun _ => by cases f.rot <;> cases k <;> rfl
  exact hrot.comp ((hiac.whenBit f.iac).comp ((hcml.whenBit f.cml).comp ((hcma.whenBit f.cma).comp
    ((hcll.whenBit f.cll).comp (hcla.whenBit f.cla)))))

theorem factors_group2Actions (r : Bool) (f : Opr2) : Factors k (State.group2Actions r f) := by
  have hcla : Factors k State.clearAc := fun _ => by cases k <;> rfl
  have hsma : Factors k fun s => s.skipWhen (f.sma && s.acMinus) := fun _ => by cases k <;> rfl
  have hsza : Factors k fun s => s.skipWhen (f.sza && s.acZero) := fun _ => by cases k <;> rfl
  have hsnl : Factors k fun s => s.skipWhen (f.snl && s.linkOne) := fun _ => by cases k <;> rfl
  have hreverse : Factors k State.reverseSkip := fun _ => by cases k <;> rfl
  have hhalt : Factors k State.halt := fun _ => by cases k <;> rfl
  exact (hhalt.whenBit f.hlt).comp ((hreverse.whenBit r).comp (hsnl.comp (hsza.comp (hsma.comp
    (hcla.whenBit f.cla)))))

theorem factors_acMqPart (f : Opr3) : Factors k (State.acMqPart f) := by
  have hcla : Factors k State.clearAc := fun _ => by cases k <;> rfl
  have hmqa : Factors k State.mqIntoAc := fun _ => by cases k <;> rfl
  have hmql : Factors k State.loadMq := fun _ => by cases k <;> rfl
  have hswp : Factors k State.exchange := fun _ => by cases k <;> rfl
  obtain ⟨cla, mq, eop⟩ := f
  cases mq with
  | noMq => exact hcla.whenBit cla
  | mqa => exact hmqa.comp (hcla.whenBit cla)
  | mql => exact hmql.comp (hcla.whenBit cla)
  | swp => exact hswp.comp (hcla.whenBit cla)

/-! ### The instructions -/

/-- What the outcome of `f` leaves of the view depends on the view alone. -/
def OutcomeFactors (k : Bool) (f : State → Host.Outcome State Fault Refusal) : Prop :=
  ∀ s : State, mapNext (State.view k) (f s) = mapNext (State.view k) (f (s.view k))

theorem Factors.next (hf : Factors k f) : OutcomeFactors k fun s => .next (f s) := fun s =>
  congrArg Host.Outcome.next (hf s)

theorem OutcomeFactors.comp {f : State → Host.Outcome State Fault Refusal} (hf : OutcomeFactors k f)
    (hg : Factors k g) : OutcomeFactors k fun s => f (g s) := fun s =>
  calc mapNext (State.view k) (f (g s))
    _ = mapNext (State.view k) (f ((g s).view k)) := hf (g s)
    _ = mapNext (State.view k) (f ((g (s.view k)).view k)) := by rw [hg s]
    _ = mapNext (State.view k) (f (g (s.view k))) := (hf _).symm

theorem normaliseLoop_view (n : Nat) (s : State) :
    (State.normaliseLoop n s).map (State.view k) = (State.normaliseLoop n (s.view k)).map (State.view k) := by
  have htest (r : State) : (r.view k).normalised = r.normalised := rfl
  have hstep : Factors k State.normaliseStep := fun _ => by cases k <;> rfl
  induction n generalizing s with
  | zero =>
    simp only [State.normaliseLoop, htest]
    split
    · exact congrArg some (s.view_view k).symm
    · rfl
  | succ n ih =>
    simp only [State.normaliseLoop, htest]
    split
    · exact congrArg some (s.view_view k).symm
    · rw [ih s.normaliseStep, hstep s, ← ih (s.view k).normaliseStep]

theorem outcomeFactors_normalise : OutcomeFactors k State.normalise := by
  have hsc : Factors k fun s => s.setSc 0 := fun _ => by cases k <;> rfl
  intro s
  have hloop : (State.normaliseLoop Config.nmiShiftBound (s.setSc 0)).map (State.view k) =
      (State.normaliseLoop Config.nmiShiftBound ((s.view k).setSc 0)).map (State.view k) := by
    rw [normaliseLoop_view, hsc s, ← normaliseLoop_view]
  cases h : State.normaliseLoop Config.nmiShiftBound (s.setSc 0) <;>
    cases h' : State.normaliseLoop Config.nmiShiftBound ((s.view k).setSc 0) <;>
    rw [h, h'] at hloop
  case none.none => rw [normalise_of_none h, normalise_of_none h']
  case some.some =>
    rw [normalise_of_some h, normalise_of_some h']
    exact congrArg Host.Outcome.next (Option.some.inj hloop)
  all_goals cases hloop

theorem outcomeFactors_performEop (e : Eop) (i : Bool) : OutcomeFactors k (State.performEop e i) := by
  have hselect : Factors k (State.selectEop e) := fun _ => by cases k <;> rfl
  have hshl : Factors k State.shiftLeft1 := fun _ => by cases k <;> rfl
  have hlsr : Factors k State.logicalRight1 := fun _ => by cases k <;> rfl
  have hasr : Factors k State.arithRight1 := fun _ => by cases k <;> rfl
  have hmuy : Factors k State.multiply := fun _ => by cases k <;> rfl
  have hdad : Factors k State.doubleAdd := fun _ => by cases k <;> rfl
  have hdst : Factors k State.doubleStore := fun s => by
    rw [State.doubleStore, State.doubleStore]
    simp only [State.writeWord_eq]
    cases k <;> rfl
  cases e with
  | nmi => exact outcomeFactors_normalise.comp hselect
  | muy => exact (hmuy.comp ((factors_operandFetch i).comp hselect)).next
  | dvi => exact (factors_divide.comp ((factors_operandFetch i).comp hselect)).next
  | dad => exact (hdad.comp ((factors_operandFetch i).comp hselect)).next
  | dst => exact (hdst.comp ((factors_operandFetch i).comp hselect)).next
  | shl => exact (hshl.shiftBySc.comp hselect).next
  | lsr => exact (hlsr.shiftBySc.comp hselect).next
  | asr => exact (hasr.shiftBySc.comp hselect).next
  | none0 | noneB => exact hselect.next
  | asc | sca | dpic | dpsz | dcm | sam => exact fun _ => congrArg Host.Outcome.next (by cases k <;> rfl)

theorem outcomeFactors_mri {n : Instr} (hn : isMri n = true) : OutcomeFactors k (exec n) := by
  have haddress := @factors_effectiveAddress k
  cases n with
  | and i p off =>
    have hf : Factors k fun e => e.setAc (e.ac &&& e.readWord e.y) := fun _ => by cases k <;> rfl
    exact (hf.comp (haddress i p off)).next
  | tad i p off =>
    have hf : Factors k fun e => e.addToAc (e.readWord e.y) := fun _ => by cases k <;> rfl
    exact (hf.comp (haddress i p off)).next
  | dca i p off =>
    have hf : Factors k fun e => (e.writeWord e.y e.ac).setAc 0 := fun e => by
      simp only [State.writeWord_eq]
      cases k <;> rfl
    exact (hf.comp (haddress i p off)).next
  | isz i p off =>
    have hf : Factors k State.incrementAtY := fun e => by
      simp only [State.incrementAtY_eq, State.writeWord_eq]
      cases k <;> rfl
    exact (hf.comp (haddress i p off)).next
  | jms i p off =>
    have hf : Factors k State.linkAndJump := fun e => by
      simp only [State.linkAndJump, State.writeWord_eq]
      cases k <;> rfl
    exact (hf.comp (haddress i p off)).next
  | jmp i p off =>
    have hf : Factors k fun e => e.setPc e.y := fun _ => by cases k <;> rfl
    exact (hf.comp (haddress i p off)).next
  | _ => cases hn

theorem outcomeFactors_iot (x : Bool) (d : BitVec 8) (dop : BitVec 4) : OutcomeFactors k (exec (.iot x d dop)) := by
  intro s
  by_cases h : (d, dop) ∈ s.devices
  · rw [exec_iot_defined h, exec_iot_defined (s := s.view k) h]
  · rw [exec_iot_undefined h, exec_iot_undefined (s := s.view k) h]
    exact congrArg Host.Outcome.next (by cases k <;> rfl)

/-- What an instruction leaves of the view depends on the view alone. -/
theorem outcomeFactors_exec {w : Word} {n : Instr} (hn : decode w = .ok n) : OutcomeFactors k (exec n) := by
  cases (decode_ok_iff w n).mp hn with
  | imm top => exact fun _ => congrArg Host.Outcome.next (by cases k <;> rfl)
  | and head | tad head | dca head | isz head | jms head | jmp head => exact outcomeFactors_mri rfl
  | iot head => exact outcomeFactors_iot _ _ _
  | group1 head b11 =>
    intro s
    rw [exec_nameGroup1, exec_nameGroup1]
    exact (factors_group1Actions _).next s
  | group2 head b11 b0 =>
    intro s
    rw [exec_nameGroup2, exec_nameGroup2]
    exact (factors_group2Actions _ _).next s
  | group3 head b11 b0 =>
    intro s
    rw [exec_nameGroup3, exec_nameGroup3]
    exact (outcomeFactors_performEop _ _).comp (factors_acMqPart _) s

end

/-! ### The step -/

/-- Two running states whose fetched states look alike take steps that look alike. -/
theorem step_view_eq {k : Bool} {s t : State} (hrun : s.run = true) (hrun' : t.run = true)
    (hskip : s.skip = t.skip) (hword : s.readWord s.pc = t.readWord t.pc)
    (hfetch : s.fetch.view k = t.fetch.view k) :
    mapNext (State.view k) (step s) = mapNext (State.view k) (step t) := by
  cases hs : s.skip with
  | true =>
    rw [step_skipped hrun hs, step_skipped hrun' (hskip.symm.trans hs)]
    exact congrArg (fun v => Host.Outcome.next (State.setSkip v false)) hfetch
  | false =>
    have hs' : t.skip = false := hskip.symm.trans hs
    cases hd : decode (s.readWord s.pc) with
    | error e =>
      obtain ⟨w⟩ := e
      rw [step_reserved hrun hs hd, step_reserved hrun' hs' (hword ▸ hd)]
    | ok n =>
      have hn := outcomeFactors_exec (k := k) hd
      rw [step_decoded hrun hs hd, step_decoded hrun' hs' (hword ▸ hd), hn s.fetch, hfetch, ← hn t.fetch]

theorem mapNext_mapNext (f g : State → State) (o : Host.Outcome State Fault Refusal) :
    mapNext g (mapNext f o) = mapNext (fun s => g (f s)) o := by
  cases o <;> rfl

/-- Settles O11: the fetch overwrites IR, Y and OP from what the state carries, so two states that carry the same
look alike once fetched. -/
theorem explanationRegistersCarryNothing : Obligations.ExplanationRegistersCarryNothing := by
  intro s t h
  have hcarried (o : Host.Outcome State Fault Refusal) :
      mapNext State.carried o = mapNext (State.setY · 0) (mapNext (State.view false) o) :=
    (mapNext_mapNext (State.view false) (State.setY · 0) o).symm
  have hrun : s.run = t.run := (congrArg State.run h :)
  cases hr : s.run with
  | false =>
    rw [step_halted hr, step_halted (hrun.symm.trans hr)]
    exact congrArg Host.Outcome.next h
  | true =>
    have hskip : s.skip = t.skip := (congrArg State.skip h :)
    have hword : s.readWord s.pc = t.readWord t.pc := (congrArg (fun r : State => r.readWord r.pc) h :)
    have hfetch : s.fetch.view false = t.fetch.view false := (congrArg (fun r : State => r.fetch.view false) h :)
    rw [hcarried, hcarried, step_view_eq hr (hrun.symm.trans hr) hskip hword hfetch]

/-! ### The page selectors -/

/-- The state with BASE and SBASE replaced. -/
def State.withSelectors (x y : Word) (s : State) : State := { s with base := x, sbase := y }

/-- A step leaves the selectors as it finds them. -/
theorem step_keeps_selectors (s : State) : mapNext (State.withSelectors s.base s.sbase) (step s) = step s := by
  cases h : step s with
  | next t =>
    have hfixed := step_fixed h
    simp only [State.fixed, Prod.mk.injEq] at hfixed
    obtain ⟨hbase, hsbase, -, -⟩ := hfixed
    rw [mapNext, ← hbase, ← hsbase]
    rfl
  | fault r => rfl
  | refused r => rfl

theorem step_withSelectors (s : State) (x y : Word) :
    step (s.withSelectors x y) = mapNext (State.withSelectors x y) (step s) := by
  have hview (o : Host.Outcome State Fault Refusal) :
      mapNext (State.withSelectors x y) o = mapNext (State.withSelectors x y) (mapNext (State.view true) o) :=
    (mapNext_mapNext (State.view true) (State.withSelectors x y) o).symm
  cases hr : s.run with
  | false =>
    have hr' : (s.withSelectors x y).run = false := hr
    rw [step_halted hr, step_halted hr']
    rfl
  | true =>
    have hr' : (s.withSelectors x y).run = true := hr
    calc step (s.withSelectors x y)
      _ = mapNext (State.withSelectors x y) (step (s.withSelectors x y)) := (step_keeps_selectors _).symm
      _ = mapNext (State.withSelectors x y) (step s) := by
        rw [hview, hview (step s), step_view_eq hr' hr rfl rfl rfl]

/-- Settles O12: with the selectors out of the view the two steps look alike, and neither step writes them or a
parameter. -/
theorem pageSelectorsAreInert : Obligations.PageSelectorsAreInert := by
  intro s x y
  refine ⟨step_withSelectors s x y, fun t ht => ?_⟩
  have hfixed := step_fixed ht
  simp only [State.fixed, Prod.mk.injEq] at hfixed
  exact hfixed.2.2

end Sys2Proof.Machine
end

section
/-! PROOFS. Operate group 1 (R165 to R182): each action as one write, the rotates as rotations of the 33-bit ring,
and a set as its actions in order. -/

namespace Sys2Proof.Machine

/-! ### Clears, complements and the increment (R167 to R171) -/

/-- Settles O30: none of the words selects an action, and EOP 0x0 and 0xB set EOP alone. -/
theorem noOperationsChangeNothing : Obligations.NoOperationsChangeNothing :=
  fun _ _ _ _ _ => ⟨rfl, rfl, rfl, rfl, rfl, rfl, rfl, rfl⟩

theorem not_eq_neg_sub_one (v : Word) : ~~~v = -v - 1 := by
  rw [BitVec.neg_eq_not_add]
  exact (BitVec.add_sub_cancel (~~~v) 1).symm

theorem exec_cma (u : BitVec 4) (s : State) : exec (.cma u) s = .next { s with ac := -s.ac - 1 } := by
  rw [← not_eq_neg_sub_one]
  rfl

/-- Settles O31: CMA is the one action that is not stated as the model has it. -/
theorem clearsAndComplements : Obligations.ClearsAndComplements :=
  fun s u1 _ _ _ => ⟨rfl, rfl, rfl, rfl, rfl, rfl, rfl, rfl, rfl, rfl, exec_cma u1 s, rfl⟩

/-- The increment carries out of AC where AC is all ones. -/
theorem State.incrementAc_eq (s : State) :
    s.incrementAc = { s with ac := s.ac + 1, l := if s.ac = 0xFFFFFFFF then !s.l else s.l } := by
  have hsum : sumWord s.ac 1 false = s.ac + 1 := by
    apply BitVec.eq_of_toNat_eq
    rw [sumWord, BitVec.toNat_ofNat, BitVec.toNat_add]
    rfl
  have hcarry : carryOut s.ac 1 false = decide (s.ac = 0xFFFFFFFF) := by
    have hac := s.ac.isLt
    have hone : (1 : Word).toNat = 1 := rfl
    have hones : (0xFFFFFFFF : Word).toNat = 2 ^ 32 - 1 := rfl
    rw [carryOut, decide_eq_decide, ← BitVec.toNat_inj, hone, hones, Bool.toNat_false]
    omega
  calc s.incrementAc
    _ = { s with ac := sumWord s.ac 1 false, l := if carryOut s.ac 1 false then !s.l else s.l } := rfl
    _ = _ := by simp only [hsum, hcarry, decide_eq_true_iff]

/-- Settles O32: AC + 1 modulo 2^32 is the word sum, and the carry is that of all ones. -/
theorem iacIncrementsAndCarryFlipsLink : Obligations.IacIncrementsAndCarryFlipsLink := by
  intro s u
  refine ⟨rfl, ?_⟩
  have hexec : exec (.iac u) s = .next s.incrementAc := rfl
  have hsum : BitVec.ofNat 32 ((s.ac.toNat + 1) % 2 ^ 32) = s.ac + 1 := by
    apply BitVec.eq_of_toNat_eq
    rw [BitVec.toNat_ofNat, Nat.mod_mod, BitVec.toNat_add]
    rfl
  have hones : s.ac.toNat = 2 ^ 32 - 1 ↔ s.ac = 0xFFFFFFFF := BitVec.toNat_inj (y := 0xFFFFFFFF)
  rw [hexec, State.incrementAc_eq, hsum]
  simp only [hones]

/-! ### Rotations of a bit vector -/

/-- Bit i of a vector rotated right is the bit r places above it, around the ring. -/
theorem getLsbD_rotateRight_mod {n : Nat} (x : BitVec n) (r : Nat) {i : Nat} (hi : i < n) :
    (x.rotateRight r).getLsbD i = x.getLsbD ((i + r) % n) := by
  have hr := Nat.mod_lt r (by omega : 0 < n)
  rw [BitVec.getLsbD_rotateRight, ← Nat.add_mod_mod]
  generalize r % n = q at hr ⊢
  by_cases h : i < n - q
  · rw [decide_eq_true h, cond_true, Nat.mod_eq_of_lt (by omega), Nat.add_comm]
  · rw [decide_eq_false h, cond_false, decide_eq_true hi, Bool.true_and, Nat.mod_eq_sub_mod (by omega), Nat.mod_eq_of_lt (by omega)]
    congr 1
    omega

theorem getLsbD_rotateLeft_mod {n : Nat} (x : BitVec n) (r : Nat) {i : Nat} (hi : i < n) :
    (x.rotateLeft r).getLsbD i = x.getLsbD ((i + (n - r % n)) % n) := by
  have hr := Nat.mod_lt r (by omega : 0 < n)
  rw [BitVec.getLsbD_rotateLeft]
  generalize r % n = q at hr ⊢
  by_cases h : i < q
  · rw [decide_eq_true h, cond_true, Nat.mod_eq_of_lt (by omega)]
    congr 1
    omega
  · rw [decide_eq_false h, cond_false, decide_eq_true hi, Bool.true_and, Nat.mod_eq_sub_mod (by omega), Nat.mod_eq_of_lt (by omega)]
    congr 1
    omega

theorem rotateRight_succ {n : Nat} (x : BitVec n) (r : Nat) :
    x.rotateRight (r + 1) = (x.rotateRight r).rotateRight 1 := by
  apply BitVec.eq_of_getLsbD_eq
  intro i hi
  rw [getLsbD_rotateRight_mod _ _ hi, getLsbD_rotateRight_mod _ _ hi,
    getLsbD_rotateRight_mod _ _ (Nat.mod_lt _ (by omega)), Nat.mod_add_mod, Nat.add_assoc, Nat.add_comm 1 r]

theorem rotateRight_width {n : Nat} (x : BitVec n) : x.rotateRight n = x := by
  apply BitVec.eq_of_getLsbD_eq
  intro i hi
  rw [getLsbD_rotateRight_mod _ _ hi, Nat.add_mod_right, Nat.mod_eq_of_lt hi]

theorem rotateLeft_rotateRight_one {n : Nat} (x : BitVec n) : (x.rotateRight 1).rotateLeft 1 = x := by
  apply BitVec.eq_of_getLsbD_eq
  intro i hi
  have h1 := Nat.mod_lt 1 (by omega : 0 < n)
  rw [getLsbD_rotateLeft_mod _ _ hi, getLsbD_rotateRight_mod _ _ (Nat.mod_lt _ (by omega)), Nat.mod_add_mod,
    ← Nat.add_mod_mod, Nat.add_assoc, Nat.sub_add_cancel h1.le, Nat.add_mod_right, Nat.mod_eq_of_lt hi]

theorem rotateRight_rotateLeft_one {n : Nat} (x : BitVec n) : (x.rotateLeft 1).rotateRight 1 = x := by
  apply BitVec.eq_of_getLsbD_eq
  intro i hi
  have h1 := Nat.mod_lt 1 (by omega : 0 < n)
  rw [getLsbD_rotateRight_mod _ _ hi, getLsbD_rotateLeft_mod _ _ (Nat.mod_lt _ (by omega)), Nat.mod_add_mod,
    ← Nat.mod_add_mod, ← Nat.add_mod_mod i 1 n, Nat.mod_add_mod, Nat.add_assoc, Nat.add_sub_of_le h1.le,
    Nat.add_mod_right, Nat.mod_eq_of_lt hi]

/-- Two places to the left are one place twice, in the ring of L and AC. -/
theorem rotateLeft_two (x : BitVec 33) : x.rotateLeft 2 = (x.rotateLeft 1).rotateLeft 1 := by
  apply BitVec.eq_of_getLsbD_eq
  intro i hi
  rw [getLsbD_rotateLeft_mod _ _ hi, getLsbD_rotateLeft_mod _ _ hi,
    getLsbD_rotateLeft_mod _ _ (Nat.mod_lt _ (by decide))]
  congr 1
  omega

/-! ### The rotates (R173 to R177) -/

theorem State.ring_getLsbD (s : State) (i : Nat) :
    s.ring.getLsbD i = if i < 32 then s.ac.getLsbD i else (BitVec.ofBool s.l).getLsbD (i - 32) :=
  BitVec.getLsbD_append

theorem State.ring_top (s : State) : s.ring.getLsbD 32 = s.l :=
  (s.ring_getLsbD 32).trans (Sys2Proof.bit_getLsbD_zero s.l)

/-- The ring determines AC and L. -/
theorem ac_l_of_ring_eq {s t : State} (h : t.ring = s.ring) : t.ac = s.ac ∧ t.l = s.l := by
  constructor
  · apply BitVec.eq_of_getLsbD_eq
    intro i hi
    have hbit := congrArg (fun x => x.getLsbD i) h
    simpa only [State.ring_getLsbD, if_pos hi] using hbit
  · rw [← t.ring_top, ← s.ring_top, h]

/-- RAR by the bits of the ring: AC[0] on top, then L, then the other bits of AC (R174). -/
theorem State.rotateRight_ring (s : State) : s.rotateRight.ring = s.ring.rotateRight 1 := by
  have hac (i : Nat) : s.rotateRight.ac.getLsbD i =
      if i < 31 then s.ac.getLsbD (1 + i) else (BitVec.ofBool s.l).getLsbD (i - 31) := by
    have h : s.rotateRight.ac.getLsbD i =
        if i < 31 then (s.ac.extractLsb' 1 31).getLsbD i else (BitVec.ofBool s.l).getLsbD (i - 31) :=
      BitVec.getLsbD_append
    rw [h]
    split
    · next hi => rw [BitVec.getLsbD_extractLsb', decide_eq_true hi, Bool.true_and]
    · rfl
  have hl : s.rotateRight.l = s.ac.getLsbD 0 := rfl
  apply BitVec.eq_of_getLsbD_eq
  intro i hi
  rw [getLsbD_rotateRight_mod _ _ hi, State.ring_getLsbD, State.ring_getLsbD, hac, hl]
  rcases (by omega : i < 31 ∨ i = 31 ∨ i = 32) with h | rfl | rfl
  · rw [if_pos (by omega), if_pos h, if_pos (by omega), Nat.mod_eq_of_lt (by omega), Nat.add_comm]
  · rfl
  · simp

/-- RAL by the bits of the ring: each bit of AC one place up, and L at the bottom (R176, D8). -/
theorem State.rotateLeft_ring (s : State) : s.rotateLeft.ring = s.ring.rotateLeft 1 := by
  have hac (i : Nat) : s.rotateLeft.ac.getLsbD i =
      if i < 1 then (BitVec.ofBool s.l).getLsbD i else (s.ac.extractLsb' 0 31).getLsbD (i - 1) :=
    BitVec.getLsbD_append
  have hl : s.rotateLeft.l = s.ac.getLsbD 31 := rfl
  apply BitVec.eq_of_getLsbD_eq
  intro i hi
  rw [getLsbD_rotateLeft_mod _ _ hi, State.ring_getLsbD, State.ring_getLsbD, hac, hl]
  rcases (by omega : i = 0 ∨ i = 32 ∨ (1 ≤ i ∧ i < 32)) with rfl | rfl | ⟨hlow, hhigh⟩
  · rfl
  · simp
  · have hmod : (i + (33 - 1 % 33)) % 33 = i - 1 := by omega
    rw [if_pos hhigh, if_neg (by omega), BitVec.getLsbD_extractLsb', decide_eq_true (by omega), Bool.true_and, hmod,
      if_pos (by omega), Nat.zero_add]

/-- The rotates write AC, L and B alone. -/
theorem exec_rotates (s : State) (u : BitVec 4) :
    exec (.rar u) s = .next s.rotateRight ∧ exec (.rtr u) s = .next s.rotateRight.rotateRight ∧
    exec (.ral u) s = .next s.rotateLeft ∧ exec (.rtl u) s = .next s.rotateLeft.rotateLeft :=
  ⟨rfl, rfl, rfl, rfl⟩

theorem State.rotateRight_twice_ring (s : State) : s.rotateRight.rotateRight.ring = s.ring.rotateRight 2 := by
  rw [State.rotateRight_ring, State.rotateRight_ring]
  exact (rotateRight_succ s.ring 1).symm

theorem State.rotateLeft_twice_ring (s : State) : s.rotateLeft.rotateLeft.ring = s.ring.rotateLeft 2 := by
  rw [State.rotateLeft_ring, State.rotateLeft_ring, rotateLeft_two]

/-- The second bit rotated out to the right is AC[1], and to the left AC[31]. -/
theorem rotate_twice_b (s : State) :
    s.rotateRight.rotateRight.b = s.ac.getLsbD 1 ∧ s.rotateLeft.rotateLeft.b = s.ac.getLsbD 31 := by
  refine ⟨?_, rfl⟩
  have hbit : (s.rotateRight.ring).getLsbD 0 = s.ac.getLsbD 1 := by
    rw [State.rotateRight_ring, getLsbD_rotateRight_mod _ _ (by decide), State.ring_getLsbD]
    rfl
  rwa [State.ring_getLsbD] at hbit

/-- Settles O33: a single rotate turns the ring by one place, and a double one is two single ones. -/
theorem rotatesTurnTheRing : Obligations.RotatesTurnTheRing := by
  intro s u
  obtain ⟨hrar, hrtr, hral, hrtl⟩ := exec_rotates s u
  obtain ⟨hright, hleft⟩ := rotate_twice_b s
  exact ⟨rfl, rfl, rfl, rfl, ⟨_, hrar, s.rotateRight_ring, rfl, rfl⟩,
    ⟨_, hrtr, s.rotateRight_twice_ring, hright, rfl⟩, ⟨_, hral, s.rotateLeft_ring, rfl, rfl⟩,
    ⟨_, hrtl, s.rotateLeft_twice_ring, hleft, rfl⟩⟩

theorem execAll_replicate_rar (n : Nat) (s : State) :
    execAll (List.replicate n (.rar 0)) s = .next (State.repeatN n State.rotateRight s) := by
  induction n generalizing s with
  | zero => rfl
  | succ n ih => exact ih s.rotateRight

theorem State.repeatN_rotateRight_ring (n : Nat) (s : State) :
    (State.repeatN n State.rotateRight s).ring = s.ring.rotateRight n := by
  induction n with
  | zero =>
    apply BitVec.eq_of_getLsbD_eq
    intro i hi
    rw [getLsbD_rotateRight_mod _ _ hi, Nat.add_zero, Nat.mod_eq_of_lt hi]
    rfl
  | succ n ih => rw [State.repeatN_succ_last, State.rotateRight_ring, ih, rotateRight_succ s.ring n]

/-- Settles O34: the ring comes back after one place each way and after its 33 places, and it determines AC and L. -/
theorem rotatesUndoEachOther : Obligations.RotatesUndoEachOther := by
  intro s
  have hrightLeft : s.rotateRight.rotateLeft.ring = s.ring := by
    rw [State.rotateLeft_ring, State.rotateRight_ring, rotateLeft_rotateRight_one]
  have hleftRight : s.rotateLeft.rotateRight.ring = s.ring := by
    rw [State.rotateRight_ring, State.rotateLeft_ring, rotateRight_rotateLeft_one]
  have hround : (State.repeatN 33 State.rotateRight s).ring = s.ring := by
    rw [State.repeatN_rotateRight_ring, rotateRight_width]
  exact ⟨⟨_, rfl, ac_l_of_ring_eq hrightLeft⟩, ⟨_, rfl, ac_l_of_ring_eq hleftRight⟩, rfl, rfl,
    ⟨_, execAll_replicate_rar 33 s, ac_l_of_ring_eq hround⟩⟩

end Sys2Proof.Machine
end

section
/-! PROOFS. Operate group 1, continued: the swaps (R178 to R180), a set as its actions in order (R165), and CMA IAC
(R182). -/

namespace Sys2Proof.Machine

/-! ### The swaps (R178, R180) -/

/-- The two halves exchanged are the word rotated by half its width. -/
theorem halfwords_swapped (v : Word) : v.extractLsb' 0 16 ++ v.extractLsb' 16 16 = v.rotateLeft 16 := by
  apply BitVec.eq_of_getLsbD_eq
  intro i hi
  rw [getLsbD_rotateLeft_mod _ _ hi, BitVec.getLsbD_append, BitVec.getLsbD_extractLsb', BitVec.getLsbD_extractLsb']
  by_cases h : i < 16
  · rw [if_pos h, decide_eq_true h, Bool.true_and]
    congr 1
    omega
  · rw [if_neg h, decide_eq_true (by omega), Bool.true_and]
    congr 1
    omega

theorem rotateLeft_half_twice (v : Word) : (v.rotateLeft 16).rotateLeft 16 = v := by
  apply BitVec.eq_of_getLsbD_eq
  intro i hi
  rw [getLsbD_rotateLeft_mod _ _ hi, getLsbD_rotateLeft_mod _ _ (Nat.mod_lt _ (by decide))]
  congr 1
  omega

/-- The 4-bit fields in the order BSW puts them in. -/
def nibblesExchanged (v : Word) : Word :=
  v.extractLsb' 16 16 ++ v.extractLsb' 8 4 ++ v.extractLsb' 12 4 ++ v.extractLsb' 0 4 ++ v.extractLsb' 4 4

/-- Bit by bit: the bits of each low byte move by four places, the upper half stays. -/
theorem nibblesExchanged_getLsbD (v : Word) {i : Nat} (hi : i < 32) :
    (nibblesExchanged v).getLsbD i =
      v.getLsbD (if i < 16 then (if i % 8 < 4 then i + 4 else i - 4) else i) := by
  have hword : (nibblesExchanged v).getLsbD i =
      if i < 4 then v.getLsbD (4 + i) else if i - 4 < 4 then v.getLsbD (0 + (i - 4))
      else if i - 4 - 4 < 4 then v.getLsbD (12 + (i - 4 - 4)) else if i - 4 - 4 - 4 < 4 then
        v.getLsbD (8 + (i - 4 - 4 - 4)) else v.getLsbD (16 + (i - 4 - 4 - 4 - 4)) := by
    simp only [nibblesExchanged, BitVec.getLsbD_append, BitVec.getLsbD_extractLsb']
    split_ifs <;> rw [decide_eq_true (by omega), Bool.true_and]
  rw [hword]
  split_ifs <;> (congr 1; omega)

theorem nibblesExchanged_eq (v : Word) : nibblesExchanged v = swappedNibbles v := by
  apply BitVec.eq_of_getLsbD_eq
  intro i hi
  rw [nibblesExchanged_getLsbD v hi, swappedNibbles]
  interval_cases i <;> simp

theorem nibblesExchanged_twice (v : Word) : nibblesExchanged (nibblesExchanged v) = v := by
  apply BitVec.eq_of_getLsbD_eq
  intro i hi
  rw [nibblesExchanged_getLsbD _ hi, nibblesExchanged_getLsbD _ (by split_ifs <;> omega)]
  congr 1
  split_ifs <;> omega

theorem State.swapHalfwords_eq (s : State) : s.swapHalfwords = { s with ac := s.ac.rotateLeft 16 } := by
  rw [← halfwords_swapped]
  rfl

theorem State.swapNibbles_eq (s : State) : s.swapNibbles = { s with ac := swappedNibbles s.ac } := by
  rw [← nibblesExchanged_eq]
  rfl

/-- Settles O35: both swaps are permutations of the bits of AC that are their own inverses. -/
theorem swapsAndPcToAc : Obligations.SwapsAndPcToAc := by
  intro s u
  have hhsw (r : State) : exec (.hsw u) r = .next { r with ac := r.ac.rotateLeft 16 } :=
    congrArg Host.Outcome.next r.swapHalfwords_eq
  have hbsw (r : State) : exec (.bsw u) r = .next { r with ac := swappedNibbles r.ac } :=
    congrArg Host.Outcome.next r.swapNibbles_eq
  have htwice : swappedNibbles (swappedNibbles s.ac) = s.ac := by
    rw [← nibblesExchanged_eq, ← nibblesExchanged_eq, nibblesExchanged_twice]
  refine ⟨rfl, rfl, rfl, hhsw s, hbsw s, rfl, ?_, ?_⟩
  · simp only [execAll, hhsw, rotateLeft_half_twice]
  · simp only [execAll, hbsw, htwice]

/-! ### Instructions one after another -/

theorem execAll_append {l : List Instr} {s t : State} (h : execAll l s = .next t) (m : List Instr) :
    execAll (l ++ m) s = execAll m t := by
  induction l generalizing s with
  | nil => cases h; rfl
  | cons i l ih =>
    rw [List.cons_append, execAll]
    rw [execAll] at h
    cases hi : exec i s with
    | next r => rw [hi] at h; exact ih h
    | fault r => rw [hi] at h; cases h
    | refused r => rw [hi] at h; cases h

/-- One optional action: the list of its instruction, or of none. -/
theorem execAll_whenBit {i : Instr} {f : State → State} (hf : ∀ s, exec i s = .next (f s)) (b : Bool) (s : State) :
    execAll (if b then [i] else []) s = .next (s.whenBit b f) := by
  cases b with
  | false => rfl
  | true =>
    show execAll [i] s = .next (f s)
    rw [execAll, hf]
    rfl

theorem execAll_rotInstrs (r : RotSel) (s : State) : execAll (rotInstrs r) s = .next (s.rotSelected r) := by
  cases r <;> rfl

/-- A group 1 set is what its single-action instructions do one after another (R165). -/
theorem execAll_group1Parts (f : Opr1) (s : State) : execAll (group1Parts f) s = .next (s.group1Actions f) := by
  have hcla := execAll_whenBit (i := .cla1 0) (f := State.clearAc) (fun _ => rfl) f.cla
  have hcll := execAll_whenBit (i := .cll 0) (f := State.clearLink) (fun _ => rfl) f.cll
  have hcma := execAll_whenBit (i := .cma 0) (f := State.complementAc) (fun _ => rfl) f.cma
  have hcml := execAll_whenBit (i := .cml 0) (f := State.complementLink) (fun _ => rfl) f.cml
  have hiac := execAll_whenBit (i := .iac 0) (f := State.incrementAc) (fun _ => rfl) f.iac
  rw [group1Parts, List.append_assoc, List.append_assoc, List.append_assoc, List.append_assoc,
    execAll_append (hcla _), execAll_append (hcll _), execAll_append (hcma _), execAll_append (hcml _),
    execAll_append (hiac _), execAll_rotInstrs]
  rfl

/-! ### The optional actions as writes of AC and L -/

section
variable (b : Bool) (s : State)

theorem whenBit_clearAc : s.whenBit b State.clearAc = { s with ac := if b then 0 else s.ac } := by
  cases b <;> rfl

theorem whenBit_clearLink : s.whenBit b State.clearLink = { s with l := if b then false else s.l } := by
  cases b <;> rfl

theorem whenBit_complementAc : s.whenBit b State.complementAc = { s with ac := if b then ~~~s.ac else s.ac } := by
  cases b <;> rfl

theorem whenBit_complementLink : s.whenBit b State.complementLink = { s with l := if b then !s.l else s.l } := by
  cases b <;> rfl

theorem whenBit_incrementAc : s.whenBit b State.incrementAc =
    { s with
      ac := if b then s.ac + 1 else s.ac
      l := if b = true ∧ s.ac = 0xFFFFFFFF then !s.l else s.l } := by
  cases b with
  | false => rfl
  | true =>
    have hif : (if true = true ∧ s.ac = 0xFFFFFFFF then !s.l else s.l) = if s.ac = 0xFFFFFFFF then !s.l else s.l :=
      if_congr (and_iff_right rfl) rfl rfl
    rw [hif]
    exact s.incrementAc_eq

end

/-- A group 1 word up to its rotate, swap or PCA: what it does to AC and L (R165 to R171). -/
theorem group1Actions_eq (f : Opr1) (s : State) :
    let ac1 : Word := if f.cla then 0 else s.ac
    let l1 : Bool := if f.cll then false else s.l
    let ac2 : Word := if f.cma then ~~~ac1 else ac1
    let l2 : Bool := if f.cml then !l1 else l1
    s.group1Actions f = State.rotSelected f.rot { s with
      ac := if f.iac then ac2 + 1 else ac2
      l := if f.iac = true ∧ ac2 = 0xFFFFFFFF then !l2 else l2 } := by
  intro ac1 l1 ac2 l2
  rw [State.group1Actions, whenBit_clearAc, whenBit_clearLink, whenBit_complementAc, whenBit_complementLink,
    whenBit_incrementAc]

/-- Settles O36: the actions in order, and the frame of the whole group. -/
theorem group1TakesAllActionsInOrder : Obligations.Group1TakesAllActionsInOrder := by
  intro f u s ac1 l1 ac2 l2 l3 ac3 ring3
  have hrest := group1Actions_rest f s
  refine ⟨s.group1Actions f, rfl, execAll_group1Parts f s,
    (congrArg (fun r : State => { r with ac := s.ac, l := s.l, b := s.b }) hrest :), ?_⟩
  have hactions : s.group1Actions f = State.rotSelected f.rot { s with ac := ac3, l := l3 } := group1Actions_eq f s
  have hring : State.ring { s with ac := ac3, l := l3 } = ring3 := rfl
  rw [hactions]
  cases f.rot with
  | noRot => exact ⟨rfl, rfl⟩
  | rar => exact State.rotateRight_ring _
  | rtr => exact State.rotateRight_twice_ring _
  | ral => exact State.rotateLeft_ring _
  | rtl => exact State.rotateLeft_twice_ring _
  | hsw => exact ⟨halfwords_swapped _, rfl⟩
  | pca => exact ⟨rfl, rfl⟩
  | bsw => exact ⟨nibblesExchanged_eq _, rfl⟩

/-! ### CMA IAC (R182) -/

/-- Complement and increment negate AC, and carry out where AC is 0. -/
theorem exec_cma_iac (u : BitVec 4) (s : State) :
    exec (.group1 { cma := true, iac := true } u) s =
      .next { s with ac := -s.ac, l := if s.ac = 0 then !s.l else s.l } := by
  have hexec : exec (.group1 { cma := true, iac := true } u) s = .next s.complementAc.incrementAc := rfl
  have hneg : ~~~s.ac + 1 = -s.ac := (BitVec.neg_eq_not_add s.ac).symm
  have hones : ~~~s.ac = 0xFFFFFFFF ↔ s.ac = 0 := by bv_omega
  rw [hexec, State.incrementAc_eq]
  show Host.Outcome.next { s with ac := ~~~s.ac + 1, l := if ~~~s.ac = 0xFFFFFFFF then !s.l else s.l } = _
  simp only [hneg, hones]

/-- Settles O37: negating twice restores AC, and AC is 0 both times or neither time. -/
theorem cmaIacNegatesAc : Obligations.CmaIacNegatesAc := by
  intro s u
  refine ⟨exec_cma_iac u s, ?_⟩
  have hzero : -s.ac = 0 ↔ s.ac = 0 := BitVec.neg_eq_zero_iff
  simp only [execAll, exec_cma_iac, BitVec.neg_neg, hzero]
  by_cases h : s.ac = 0
  · simp only [if_pos h, Bool.not_not]
  · simp only [if_neg h]

end Sys2Proof.Machine
end

section
/-! PROOFS. Operate group 2 (R190 to R197) and the AC and MQ part of group 3 (R205 to R212). -/

namespace Sys2Proof.Machine

/-! ### The reverse bit (R195 to R197) -/

theorem State.reverseSkip_eq (s : State) : s.reverseSkip = { s with skip := !s.skip } := rfl

theorem not_negative_eq (v : Word) : (!decide (v.toInt < 0)) = decide (0 ≤ v.toInt) := by
  rw [← decide_not]
  exact decide_eq_decide.mpr Int.not_lt

/-- Settles O39: with S = 0 the reversed test alone decides. -/
theorem reversedTestsSkipOnTheOpposite : Obligations.ReversedTestsSkipOnTheOpposite := by
  intro s u hskip
  have hreversed (test : Bool) : (s.skipWhen test).reverseSkip = { s with skip := !test } := by
    rw [State.skipWhen_eq, State.reverseSkip_eq, hskip, Bool.or_false]
  have hspa : exec (.spa u) s = .next { s with skip := !s.acMinus } := congrArg Host.Outcome.next (hreversed _)
  have hsna : exec (.sna u) s = .next { s with skip := !s.acZero } := congrArg Host.Outcome.next (hreversed _)
  have hszl : exec (.szl u) s = .next { s with skip := !s.l } := congrArg Host.Outcome.next (hreversed _)
  have hskp : exec (.skp u) s = .next { s with skip := !s.skip } := rfl
  rw [State.acMinus_eq, not_negative_eq] at hspa
  rw [State.acZero_eq, ← decide_not] at hsna
  rw [hskip] at hskp
  exact ⟨hspa, hsna, hszl, hskp, rfl, rfl, rfl, rfl⟩

/-! ### A group 2 set (R190, D21) -/

/-- Whether a selected test holds after the clear. -/
def group2Holds (f : Opr2) (s : State) : Prop :=
  (f.sma = true ∧ f.cla = false ∧ s.ac.toInt < 0) ∨ (f.sza = true ∧ (f.cla = true ∨ s.ac = 0)) ∨
    (f.snl = true ∧ s.l = true)

/-- After the clear AC is 0: SMA fails and SZA holds. -/
theorem group2_tests_iff (f : Opr2) (s : State) :
    (f.snl && s.l || (f.sza && (s.whenBit f.cla State.clearAc).acZero ||
      (f.sma && (s.whenBit f.cla State.clearAc).acMinus || false))) = true ↔ group2Holds f s := by
  have hzero : (s.whenBit f.cla State.clearAc).acZero = true ↔ f.cla = true ∨ s.ac = 0 := by
    rw [State.acZero_eq, decide_eq_true_iff, whenBit_clearAc]
    cases f.cla <;> simp
  have hminus : (s.whenBit f.cla State.clearAc).acMinus = true ↔ f.cla = false ∧ s.ac.toInt < 0 := by
    rw [State.acMinus_eq, decide_eq_true_iff, whenBit_clearAc]
    cases f.cla <;> simp
  rw [Bool.or_false, Bool.or_eq_true, Bool.or_eq_true, Bool.and_eq_true, Bool.and_eq_true, Bool.and_eq_true, hzero,
    hminus, group2Holds]
  exact (or_assoc.symm.trans or_comm).trans (or_congr_right or_comm)

/-- Settles O40: S is the disjunction of the tests, reversed or not, and the clear and the halt are the other two
writes. -/
theorem group2SkipsIfAnyOrNoneHolds : Obligations.Group2SkipsIfAnyOrNoneHolds := by
  intro f u s hskip holds rest
  have htests := group2_tests_iff f s
  rw [← hskip] at htests
  have hexec : exec (.group2 f u) s = .next (s.group2Actions false f) := rfl
  have hexec' : exec (.reverse f u) s = .next (s.group2Actions true f) := rfl
  rw [hexec, hexec', group2Actions_eq, group2Actions_eq]
  refine ⟨⟨_, rfl, ?_, rfl, rfl, rfl⟩, ⟨_, rfl, ?_, rfl, rfl, rfl⟩⟩
  · rw [Bool.false_xor]
    exact htests
  · rw [Bool.true_xor, Bool.not_eq_true', ← Bool.not_eq_true]
    exact not_congr htests

/-! ### The AC and MQ part of group 3 (R207 to R209) -/

/-- Settles O41: each move writes AC, MQ or both, and EOP. -/
theorem acAndMqMoves : Obligations.AcAndMqMoves :=
  fun _ _ _ => ⟨rfl, rfl, rfl, rfl, rfl, rfl, rfl⟩

/-! ### A group 3 set as its parts (R205, D29) -/

theorem exec_eopInstr (e : Eop) (i : Bool) (u : BitVec 3) (s : State) :
    exec (eopInstr e i u) s = s.performEop e i := by
  cases e <;> rfl

/-- An EOP operation sets EOP first, so what was in EOP does not matter. -/
theorem performEop_congr {e : Eop} {s t : State} (h : s.selectEop e = t.selectEop e) (i : Bool) :
    s.performEop e i = t.performEop e i := by
  unfold State.performEop
  rw [h]

/-- The instructions of the AC/MQ part do that part, and they set EOP, which the EOP operation sets again. -/
theorem execAll_acMqPart (f : Opr3) (e : Eop) (s : State) :
    ∃ t, execAll ((if f.cla then [.cla3 false 0] else []) ++ mqInstrs f.mq) s = .next t ∧
      t.selectEop e = (s.acMqPart f).selectEop e := by
  obtain ⟨cla, mq, eop⟩ := f
  cases cla <;> cases mq <;> exact ⟨_, rfl, rfl⟩

theorem execAll_group3Parts (f : Opr3) (i : Bool) (u : BitVec 3) (s : State) :
    execAll (group3Parts f i u) s = (s.acMqPart f).performEop f.eop i := by
  obtain ⟨t, ht, heop⟩ := execAll_acMqPart f f.eop s
  have hlast : execAll [eopInstr f.eop i u] t = exec (eopInstr f.eop i u) t := by
    rw [execAll]
    cases exec (eopInstr f.eop i u) t <;> rfl
  rw [group3Parts, execAll_append ht, hlast, exec_eopInstr, performEop_congr heop]

theorem takesOperand_eq_false {e : Eop} (hmuy : e ≠ .muy) (hdvi : e ≠ .dvi) (hdad : e ≠ .dad) (hdst : e ≠ .dst) :
    takesOperand e = false := by
  cases e with
  | muy => exact absurd rfl hmuy
  | dvi => exact absurd rfl hdvi
  | dad => exact absurd rfl hdad
  | dst => exact absurd rfl hdst
  | _ => rfl

/-- Settles O42: the sequence of parts is the one instruction, and the frame is that of the EOP operation. -/
theorem group3TakesItsPartsInOrder : Obligations.Group3TakesItsPartsInOrder := by
  intro f i u s
  have hexec : exec (.group3 f i u) s = (s.acMqPart f).performEop f.eop i := rfl
  refine ⟨hexec.trans (execAll_group3Parts f i u s).symm, fun hnmi => ?_, fun t ht => ?_⟩
  · rw [hexec]
    exact performEop_completes hnmi i _
  · have hpart := acMqPart_rest f.eop f s
    have hrest := performEop_rest (hexec.symm.trans ht)
    have hfields : t.restOfEop f.eop = (s.selectEop f.eop).restOfEop f.eop :=
      hrest.trans (congrArg (State.selectEop f.eop) hpart :)
    refine ⟨fun hmuy hdvi hdad hdst => ?_, fun hdst => ?_, fun hdpsz => ?_, (congrArg State.eop hfields :),
      (congrArg State.run hfields :)⟩
    · have hpc := congrArg State.pc hfields
      simp only [State.restOfEop, takesOperand_eq_false hmuy hdvi hdad hdst, Bool.false_eq_true, if_false] at hpc
      exact hpc
    · have hmem := congrArg State.mem hfields
      simp only [State.restOfEop, if_neg hdst] at hmem
      exact hmem
    · have hskip := congrArg State.skip hfields
      simp only [State.restOfEop, if_neg hdpsz] at hskip
      exact hskip

end Sys2Proof.Machine
end

section
/-! PROOFS. The EOP operations ASC, MUY, DVI, ASR, DAD, DST and SAM (R219 to R235). -/

namespace Sys2Proof.Machine

/-! ### ASC (R219, D6) -/

theorem low7_toNat (v : Word) : (v.extractLsb' 0 7).toNat = v.toNat % 128 :=
  BitVec.extractLsb'_toNat 0 7 v

/-- Settles O43: SC takes the 7 low bits of AC. -/
theorem ascLoadsTheShiftCount : Obligations.AscLoadsTheShiftCount :=
  fun s _ _ => ⟨rfl, _, rfl, low7_toNat s.ac, rfl⟩

/-! ### MUY (R220, D10) -/

/-- AC plus a product of two words fits the double word. -/
theorem add_mul_lt (a b c : Word) : a.toNat + b.toNat * c.toNat < 2 ^ 64 := by
  have hmul : b.toNat * c.toNat ≤ (2 ^ 32 - 1) * (2 ^ 32 - 1) :=
    Nat.mul_le_mul (Nat.le_sub_one_of_lt b.isLt) (Nat.le_sub_one_of_lt c.isLt)
  have ha := a.isLt
  omega

/-- The two halves of a double word, put back together. -/
theorem halves_toNat {p : Nat} (hp : p < 2 ^ 64) :
    (BitVec.ofNat 32 (p / 2 ^ 32)).toNat * 2 ^ 32 + (BitVec.ofNat 32 p).toNat = p := by
  rw [BitVec.toNat_ofNat, BitVec.toNat_ofNat]
  omega

theorem State.multiply_double (s : State) : s.multiply.double = s.ac.toNat + s.y.toNat * s.mq.toNat :=
  halves_toNat (add_mul_lt s.ac s.y s.mq)

/-- MUY writes AC, MQ, L and SC. -/
theorem State.multiply_writes (s : State) :
    { s.multiply with ac := s.ac, mq := s.mq } = { s with l := false, sc := 0 } := rfl

theorem exec_muy (i : Bool) (u : BitVec 3) (s : State) :
    exec (.muy i u) s = .next ((s.selectEop .muy).operandFetch i).multiply := rfl

/-- Settles O45: the operand fetch puts the multiplier in Y and keeps AC and MQ. -/
theorem muyMultipliesAndAddsAc : Obligations.MuyMultipliesAndAddsAc := by
  intro s i u y
  have hvalue := ((s.selectEop .muy).operandFetch i).multiply_double
  have hrest := ((s.selectEop .muy).operandFetch i).multiply_writes
  refine ⟨rfl, rfl, _, exec_muy i u s, ?_, ?_⟩
  · rw [hvalue, State.operandFetch_eq]
    rfl
  · rw [State.operandFetch_eq] at hrest ⊢
    exact hrest

/-! ### DVI (R221, R222, D11) -/

/-- Overflow is a quotient of more than 32 bits, or no quotient at all. -/
theorem State.divideOverflows_iff (s : State) :
    s.divideOverflows = true ↔ s.y = 0 ∨ 2 ^ 32 ≤ s.double / s.y.toNat := by
  have hmq := s.mq.isLt
  rw [State.divideOverflows, Bool.or_eq_true, beq_iff_eq, decide_eq_true_iff]
  refine or_congr_right' fun hy => ?_
  have hpos : 0 < s.y.toNat := Nat.pos_of_ne_zero fun h => hy (BitVec.toNat_inj.mp h)
  rw [Nat.le_div_iff_mul_le hpos, State.double]
  omega

/-- Settles O47: the quotient decides overflow, and L, SC, Y, PC and EOP are what is said of the state. -/
theorem dviOverflowSetsLink : Obligations.DviOverflowSetsLink := by
  intro s i u y hover
  have hoverflows : ((s.selectEop .dvi).operandFetch i).divideOverflows = true := by
    rw [State.divideOverflows_iff, State.operandFetch_eq]
    exact hover
  refine ⟨_, congrArg Host.Outcome.next (divide_of_overflow hoverflows), ?_⟩
  rw [State.operandFetch_eq]
  rfl

/-- Quotient and remainder as words, where the quotient fits. -/
theorem quotient_remainder {a m y : Word} (h : a.toNat < y.toNat) :
    (BitVec.ofNat 32 ((a.toNat * 2 ^ 32 + m.toNat) / y.toNat)).toNat * y.toNat +
        (BitVec.ofNat 32 ((a.toNat * 2 ^ 32 + m.toNat) % y.toNat)).toNat = a.toNat * 2 ^ 32 + m.toNat ∧
      (BitVec.ofNat 32 ((a.toNat * 2 ^ 32 + m.toNat) % y.toNat)).toNat < y.toNat := by
  have hm := m.isLt
  have hy := y.isLt
  have hpos : 0 < y.toNat := by omega
  have hquotient : (a.toNat * 2 ^ 32 + m.toNat) / y.toNat < 2 ^ 32 := by
    rw [Nat.div_lt_iff_lt_mul hpos]
    omega
  have hremainder := Nat.mod_lt (a.toNat * 2 ^ 32 + m.toNat) hpos
  rw [BitVec.toNat_ofNat, BitVec.toNat_ofNat, Nat.mod_eq_of_lt hquotient, Nat.mod_eq_of_lt (hremainder.trans hy)]
  exact ⟨Nat.div_add_mod' _ _, hremainder⟩

/-- Settles O46: an AC below the divisor leaves no overflow, and the division identity holds of the words. -/
theorem dviDividesTheDoubleWord : Obligations.DviDividesTheDoubleWord := by
  intro s i u y
  refine ⟨rfl, rfl, fun hlt => ?_⟩
  obtain ⟨hidentity, hremainder⟩ := quotient_remainder (m := s.mq) hlt
  have hno : ((s.selectEop .dvi).operandFetch i).divideOverflows = false := by
    rw [State.operandFetch_eq, State.divideOverflows, Bool.or_eq_false_iff, beq_eq_false_iff_ne,
      decide_eq_false_iff_not]
    refine ⟨fun hzero => ?_, Nat.not_le.mpr hlt⟩
    have hy : y = 0 := hzero
    rw [hy] at hlt
    exact absurd hlt (Nat.not_lt_zero _)
  refine ⟨_, congrArg Host.Outcome.next (divide_of_no_overflow hno), ?_⟩
  rw [State.operandFetch_eq]
  exact ⟨hidentity, hremainder, rfl⟩

end Sys2Proof.Machine
end

section
/-! PROOFS. The EOP operations ASR, DAD, DST and SAM (R226, R230, R231, R235). -/

namespace Sys2Proof.Machine

/-! ### ASR (R226, D13) -/

/-- The signed double word is the unsigned one, less 2^64 where the sign is set. -/
theorem State.doubleInt_eq (s : State) :
    s.doubleInt = (s.double : Int) - (s.ac.getLsbD 31).toNat * 2 ^ 64 := by
  have hsign : s.ac.msb = s.ac.getLsbD 31 := BitVec.msb_eq_getLsbD_last s.ac
  have hac : s.ac.toInt = (s.ac.toNat : Int) - (s.ac.getLsbD 31).toNat * 2 ^ 32 := by
    rw [BitVec.toInt_eq_msb_cond, hsign]
    cases s.ac.getLsbD 31 <;> simp
  rw [State.doubleInt, State.double, hac]
  push_cast
  ring

/-- The bit that enters at the top is the sign, so the sign stays. -/
theorem State.arithRight1_sign (s : State) : s.arithRight1.ac.getLsbD 31 = s.ac.getLsbD 31 := by
  have hac := shiftRight1_ac_toNat (s.ac.getLsbD 31) s
  have hlt := s.ac.isLt
  rw [Bool.eq_iff_iff, getLsbD_31_iff, State.arithRight1, hac, getLsbD_31_iff]
  cases h : s.ac.getLsbD 31 with
  | false =>
    have hsmall : ¬ 2 ^ 31 ≤ s.ac.toNat := fun hle => by
      rw [(getLsbD_31_iff s.ac).mpr hle] at h
      cases h
    rw [Bool.toNat_false]
    omega
  | true =>
    have hlarge := (getLsbD_31_iff s.ac).mp h
    rw [Bool.toNat_true]
    omega

/-- One arithmetic shift halves the signed double word, rounding down. -/
theorem State.arithRight1_doubleInt (s : State) : s.arithRight1.doubleInt = s.doubleInt / 2 := by
  have hdouble : s.arithRight1.double = (s.ac.getLsbD 31).toNat * 2 ^ 63 + s.double / 2 :=
    s.shiftRight1_double (s.ac.getLsbD 31)
  have hsign := Bool.toNat_le (s.ac.getLsbD 31)
  rw [State.doubleInt_eq, State.doubleInt_eq, State.arithRight1_sign, hdouble]
  omega

theorem State.repeatN_arithRight1_doubleInt (n : Nat) (s : State) :
    (State.repeatN n State.arithRight1 s).doubleInt = s.doubleInt / 2 ^ n := by
  induction n generalizing s with
  | zero => rw [State.repeatN_zero, Int.pow_zero, Int.ediv_one]
  | succ n ih =>
    rw [State.repeatN_succ, ih, State.arithRight1_doubleInt, Int.ediv_ediv_of_nonneg (by decide), ← Int.pow_succ']

/-- L holds the sign that the last shift put there, so it is kept where there was no shift. -/
theorem State.repeatN_arithRight1_l (n : Nat) (s : State) :
    (State.repeatN n State.arithRight1 s).l = if n = 0 then s.l else s.ac.getLsbD 31 := by
  have hsign (n : Nat) : (State.repeatN n State.arithRight1 s).ac.getLsbD 31 = s.ac.getLsbD 31 :=
    repeatN_keeps (v := fun r => r.ac.getLsbD 31) State.arithRight1_sign n s
  cases n with
  | zero => rfl
  | succ n =>
    rw [State.repeatN_succ_last, if_neg n.succ_ne_zero, ← hsign n]
    rfl

theorem State.tripleFrom_arithRight1 (s : State) : s.tripleFrom s.arithRight1 = s := rfl

theorem exec_asr (i : Bool) (u : BitVec 3) (s : State) :
    exec (.asr i u) s = .next ((s.selectEop .asr).shiftBySc State.arithRight1) := rfl

/-- Settles O52: each of the SC shifts halves the signed double word and keeps its sign. -/
theorem asrDividesTheSignedDouble : Obligations.AsrDividesTheSignedDouble := by
  intro s i u
  have hvalue := State.repeatN_arithRight1_doubleInt s.sc.toNat (s.selectEop .asr)
  have hrest := State.tripleFrom_shiftBySc State.tripleFrom_arithRight1 (s.selectEop .asr)
  have hcount : s.sc.toNat = 0 ↔ s.sc = 0 := BitVec.toNat_inj (x := s.sc) (y := 0)
  have hlink := State.repeatN_arithRight1_l s.sc.toNat (s.selectEop .asr)
  simp only [hcount] at hlink
  exact ⟨rfl, _, exec_asr i u s, hvalue, hlink, hrest⟩

/-! ### DAD (R230) -/

theorem State.doubleAdd_triple (s : State) :
    s.doubleAdd.triple = s.double + ((s.readWord s.y).toNat * 2 ^ 32 + (s.readWord (s.y + 1)).toNat) :=
  carryOut_add_sumWord_double s.ac s.mq (s.readWord s.y) (s.readWord (s.y + 1))

theorem exec_dad (i : Bool) (u : BitVec 3) (s : State) :
    exec (.dad i u) s = .next ((s.selectEop .dad).operandFetch i).doubleAdd := rfl

/-- Settles O53: the operand fetch puts the address in Y, and the two carries chain into the 65-bit sum. -/
theorem dadAddsTheDoubleWord : Obligations.DadAddsTheDoubleWord := by
  intro s i u y
  have hvalue := ((s.selectEop .dad).operandFetch i).doubleAdd_triple
  refine ⟨rfl, rfl, _, exec_dad i u s, ?_, ?_⟩
  · rw [hvalue, State.operandFetch_eq]
    rfl
  · rw [State.operandFetch_eq]
    rfl

/-! ### DST (R231, D14) -/

/-- What the two stores of a double word leave in memory: the two words are different ones. -/
theorem readWord_doubleStore {s : State} (hm : s.mem.wf = true) :
    (s.y.toNat ≤ s.h.toNat → s.doubleStore.readWord s.y = s.ac) ∧
    ((s.y + 1).toNat ≤ s.h.toNat → s.doubleStore.readWord (s.y + 1) = s.mq) ∧
    (∀ a, (a ≠ s.y ∧ a ≠ s.y + 1) ∨ s.h.toNat < a.toNat → s.doubleStore.readWord a = s.readWord a) := by
  have hne : s.y ≠ s.y + 1 := by bv_omega
  have hm' := s.writeWord_wf s.y s.ac hm
  have hstore : s.doubleStore = (s.writeWord s.y s.ac).writeWord (s.y + 1) s.mq := by
    rw [State.doubleStore, State.lowWordAddress]
  rw [hstore]
  refine ⟨fun hy => ?_, fun hy => ?_, fun a ha => ?_⟩
  · rw [State.readWord_writeWord_ne _ hne _ hm', s.readWord_writeWord_same hy _ hm]
  · exact State.readWord_writeWord_same _ (by rwa [State.writeWord_h]) _ hm'
  · rcases ha with ⟨hy, hlow⟩ | hbeyond
    · rw [State.readWord_writeWord_ne _ hlow _ hm', s.readWord_writeWord_ne hy _ hm]
    · rw [s.readWord_of_lt hbeyond, State.readWord_of_lt _ (by rwa [State.writeWord_h, State.writeWord_h])]

theorem exec_dst (i : Bool) (u : BitVec 3) (s : State) :
    exec (.dst i u) s = .next ((s.selectEop .dst).operandFetch i).doubleStore := rfl

/-- Settles O54: the operand fetch puts the address in Y and keeps the memory, and then the two words are stored. -/
theorem dstStoresTheDoubleWord : Obligations.DstStoresTheDoubleWord := by
  intro s i u hm y
  have hfetch := (s.selectEop .dst).operandFetch_eq i
  have hm' : ((s.selectEop .dst).operandFetch i).mem.wf = true := by
    rw [hfetch]
    exact hm
  obtain ⟨hhigh, hlow, hother⟩ := readWord_doubleStore hm'
  refine ⟨rfl, rfl, _, exec_dst i u s, ?_⟩
  rw [hfetch] at hhigh hlow hother ⊢
  refine ⟨hhigh, hlow, hother, ?_⟩
  rw [State.doubleStore, State.writeWord_eq, State.writeWord_eq]
  rfl

/-! ### SAM (R235, D22) -/

/-- A difference and its borrow. -/
theorem borrow_difference (a m : Word) :
    (borrowOut m a).toNat * 2 ^ 32 + m.toNat = a.toNat + (m - a).toNat := by
  have ha := a.isLt
  have hm := m.isLt
  rw [borrowOut, BitVec.toNat_sub]
  by_cases h : m.toNat < a.toNat
  · rw [decide_eq_true h, Bool.toNat_true]
    omega
  · rw [decide_eq_false h, Bool.toNat_false]
    omega

/-- Settles O57: L is the borrow of the difference that goes to AC. -/
theorem samSubtractsAcFromMq : Obligations.SamSubtractsAcFromMq :=
  fun s _ _ => ⟨rfl, _, rfl, borrow_difference s.ac s.mq, rfl, rfl⟩

end Sys2Proof.Machine
end
